-- ==== Sys2Proof/Word.lean ====
section
/-!
DEFINITION. The words and the identifiers of the Modspan 3216. Identifiers are bounded numbers; bytes, words and
addresses that the host sees as bits are bit vectors.
-/

namespace Sys2Proof

/-- A byte of host memory. -/
abbrev Byte := BitVec 8

/-- A register, a report value or a stamp: 32 bits. -/
abbrev Word32 := BitVec 32

/-- S0 to S31 (file 00, Identifiers). -/
abbrev SessionId := Fin 32

/-- IN0 to IN15. -/
abbrev LineId := Fin 16

/-- OUT0 to OUT7. -/
abbrev OutputId := Fin 8

/-- JR0 to JR7. -/
abbrev JobRingId := Fin 8

/-- RR0 to RR7. -/
abbrev ReportRingId := Fin 8

/-- The 64 wait entries (R96). -/
abbrev WaitId := Fin 64

/-- A 32-byte job record as one number: byte k of the slot is bits 8k to 8k+7 (R174, R175). -/
abbrev JobRecord := BitVec 256

/-- An 8-byte point entry as one number, byte k at bits 8k to 8k+7 (R174, R177). -/
abbrev PointEntry := BitVec 64

end Sys2Proof
end

