-- ==== Sys2Proof/Config.lean ====
section
/-!
DEFINITION. What the part fixes: the figures of file 00 (Principal figures) that more than one rule uses. The spec
leaves no value of the machine undefined, so there is no opaque free value here.
-/

namespace Sys2Proof.Config

/-- Points per list, 0 to 16 (R60). -/
def maxPoints : Nat := 16

/-- Outstanding waits of one session (R96). -/
def maxSessionWaits : Nat := 8

/-- Followers of one pacer (R88). -/
def maxFollowers : Nat := 8

/-- Records in a pending store (R149). -/
def maxStore : Nat := 8

/-- The saturation value of wraps, illegal steps and lost counts (file 00). -/
def saturation : Nat := 65535

/-- Reference periods in a microsecond (R40, R41). -/
def periodsPerMicro : Nat := 100

/-- The reference periods after which all five dividers and the stamp prescaler are in step again (R39, R40). -/
def dividerCycle : Nat := 10000

/-- The largest window length (R7). -/
def maxWindowLength : Nat := 16777215

/-- One past the highest 64-bit address. -/
def addressSpace : Nat := 2 ^ 64

/-- The filter width after a hardware reset (R113). -/
def defaultFilterWidth : Nat := 4

end Sys2Proof.Config
end

