-- ==== Sys2Proof/Syntax.lean ====
section
/-!
DEFINITION. The commands of the part: one constructor of `Instr` for each row of spec/opcode_table.json. A job row
carries the fetched job record; a register row carries the written word; an event row names what it happens to.
-/

namespace Sys2Proof

/-- The five tick choices (R39). -/
inductive TickRate where
  | ns10
  | ns100
  | us1
  | us10
  | us100
  deriving DecidableEq, Repr

/-- The role a changed line plays in a session that names it (R21). In a QUAD session both phase lines are one
role, `phase`, because changes of both at one instant are one pair sample (R22). `mark` is no edge: the session takes
the oldest pace mark handed to it, between the edges of the instant (R44, R49). -/
inductive EdgeRole where
  | phase
  | lineB
  | inhibit
  | mark
  deriving DecidableEq, Repr

/-- One delivery of an instant's qualified edges: to a session, in a role; or a mark taken among them. -/
abbrev Delivery := SessionId × EdgeRole

/-- What happens at a session at the instant of a tick: its tick (R43), the window end that a tick has made due (R48,
R54), or the taking of the oldest pace mark handed to it (R56, R90). -/
inductive TickPart where
  | tick
  | windowEnd
  | mark
  deriving DecidableEq, Repr

/-- One turn of the instant of a tick. -/
abbrev TickTurn := SessionId × TickPart

/-- The three registers of the control region (R168). -/
inductive CrRegister where
  | baseLo
  | baseHi
  | sizes
  deriving DecidableEq, Repr

/-- The commands of the part. -/
inductive Instr where
  /-- JOB_TAKE (R130). With no record: the taker chooses a ring, reserves a place and starts the read. With a record:
  the read of the take in progress returns that record, whatever its kind code (log 3). -/
  | jobTake (fetched : Option JobRecord)
  /-- RECORD_FETCH_ERROR (R132): the read of the take in progress returns a bus error. -/
  | recordFetchError
  /-- OPEN (R9): the read of the take in progress returns this OPEN record; so for every job row below. -/
  | openJob (rec : JobRecord)
  /-- CLOSE (R16). -/
  | closeJob (rec : JobRecord)
  /-- START (R10). -/
  | startJob (rec : JobRecord)
  /-- STOP (R11). -/
  | stopJob (rec : JobRecord)
  /-- PRESET (R32). -/
  | preset (rec : JobRecord)
  /-- READ (R34). -/
  | read (rec : JobRecord)
  /-- LOAD_POINTS (R69). -/
  | loadPoints (rec : JobRecord)
  /-- COMMIT_POINTS (R79). -/
  | commitPoints (rec : JobRecord)
  /-- HOLD (R83). -/
  | hold (rec : JobRecord)
  /-- RELEASE (R84). -/
  | release (rec : JobRecord)
  /-- AWAIT (R101). -/
  | awaitJob (rec : JobRecord)
  /-- CANCEL_WAIT (R109). -/
  | cancelWait (rec : JobRecord)
  /-- OUTPUTS (R123). -/
  | outputs (rec : JobRecord)
  /-- MAKE_JOB_RING (R140). -/
  | makeJobRing (rec : JobRecord)
  /-- DROP_JOB_RING (R141). -/
  | dropJobRing (rec : JobRecord)
  /-- RESTART_JOB_RING (R142). -/
  | restartJobRing (rec : JobRecord)
  /-- MAKE_REPORT_RING (R155). -/
  | makeReportRing (rec : JobRecord)
  /-- DROP_REPORT_RING (R156, R157). -/
  | dropReportRing (rec : JobRecord)
  /-- REPORT_RING_DROPPED (R156): the last write the drop waited for has ended. -/
  | reportRingDropped
  /-- TUNE_REPORT_RING (R163). -/
  | tuneReportRing (rec : JobRecord)
  /-- LINE_SETUP (R116). -/
  | lineSetup (rec : JobRecord)
  /-- POINT_FETCH_DONE (R73): the whole array of the n-th oldest fetch in flight has arrived. -/
  | pointFetchDone (fetch : Nat) (entries : List PointEntry)
  /-- POINT_FETCH_ERROR (R72): the read of an entry of the n-th oldest fetch in flight returns a bus error. -/
  | pointFetchError (fetch : Nat) (entry : Nat)
  /-- QUALIFIED_EDGE (R114): the filters of these lines accept a new raw level at one instant; the deliveries, and the
  marks taken among them, in this order. -/
  | qualifiedEdge (lines : BitVec 16) (order : List Delivery)
  /-- TICK (R43): the ticks, and the window ends and marks taken among them, in this order. -/
  | tick (rate : TickRate) (order : List TickTurn)
  /-- WINDOW_TIMER_EXPIRY (R48). -/
  | windowTimerExpiry (session : SessionId)
  /-- INTERVAL_WINDOW_END (R54). -/
  | intervalWindowEnd (session : SessionId)
  /-- PACE_MARK (R90): this follower takes the oldest mark handed to it. -/
  | paceMark (follower : SessionId)
  /-- PULSE_EXPIRY (R121). -/
  | pulseExpiry (line : OutputId)
  /-- WAIT_TIMEOUT (R107). -/
  | waitTimeout (entry : WaitId)
  /-- BATCH_TIMER_EXPIRY (R160). -/
  | batchTimerExpiry (ring : ReportRingId)
  /-- REPORT_WRITE_DONE (R146): the oldest bus write of the ring completes. -/
  | reportWriteDone (ring : ReportRingId)
  /-- REPORT_WRITE_ERROR (R153): the oldest bus write of the ring ends with a bus error. -/
  | reportWriteError (ring : ReportRingId)
  /-- JPOST (R127): the word written. -/
  | jpost (word : Word32)
  /-- RRELEASE (R147). -/
  | rrelease (word : Word32)
  /-- INT_PENDING (R161). -/
  | intPending (word : Word32)
  /-- BAD_INDEX_CLEAR (R167): the word written to STATUS. -/
  | badIndexClear (word : Word32)
  /-- RUN (R171): the word written to CONTROL; so for START_UP, INT_ENABLE and ENGINE_RESET (log 8). -/
  | run (word : Word32)
  /-- START_UP (R170). -/
  | startUp (word : Word32)
  /-- INT_ENABLE (R166). -/
  | intEnable (word : Word32)
  /-- ENGINE_RESET (R172). -/
  | engineReset (word : Word32)
  /-- ENGINE_RESET_END (R172). -/
  | engineResetEnd
  /-- CONTROL_REGION_WRITE (R168). -/
  | controlRegionWrite (reg : CrRegister) (word : Word32)
  /-- REGISTER_WRITE (R165): a write at a byte offset of the register window. -/
  | registerWrite (offset : Nat) (word : Word32)
  /-- HARDWARE_RESET (R169): RESET_N goes low. -/
  | hardwareReset
  /-- RESET_N_RISE (R169): RESET_N rises; each filter's first sample. -/
  | resetNRise (levels : BitVec 16)
  /-- INITIALISATION_END (R169). -/
  | initialisationEnd
  /-- RAW_PIN_SAMPLE (R114): one period of the reference clock, with the sixteen raw levels. -/
  | rawPinSample (levels : BitVec 16) (order : List Delivery)
  /-- STAMP_CLOCK_ADVANCE (R40). -/
  | stampClockAdvance
  deriving DecidableEq, Repr

end Sys2Proof
end

