-- ==== Sys2Proof/Decode.lean ====
section
/-!
DEFINITION. Reading the words the host writes: the fields of a job record by byte offset (R174, R175), the kind codes
(R175), and `decodeTableWord`. No row of the opcode table has bits, so no table word spells a command.
-/

namespace Sys2Proof

/-- The twenty kinds of job (R134, R175). -/
inductive Kind where
  | openJob
  | closeJob
  | startJob
  | stopJob
  | preset
  | read
  | loadPoints
  | commitPoints
  | hold
  | release
  | awaitJob
  | cancelWait
  | outputs
  | makeJobRing
  | dropJobRing
  | restartJobRing
  | makeReportRing
  | dropReportRing
  | tuneReportRing
  | lineSetup
  deriving DecidableEq, Repr

/-- The code of each kind (R175). -/
def Kind.code : Kind → Byte
  | .openJob => 0x01
  | .closeJob => 0x02
  | .startJob => 0x03
  | .stopJob => 0x04
  | .preset => 0x05
  | .read => 0x06
  | .loadPoints => 0x07
  | .commitPoints => 0x08
  | .hold => 0x09
  | .release => 0x0a
  | .awaitJob => 0x0b
  | .cancelWait => 0x0c
  | .outputs => 0x0d
  | .makeJobRing => 0x20
  | .dropJobRing => 0x21
  | .restartJobRing => 0x22
  | .makeReportRing => 0x23
  | .dropReportRing => 0x24
  | .tuneReportRing => 0x25
  | .lineSetup => 0x26

/-- The kinds in the order of their codes. -/
def Kind.all : List Kind :=
  [.openJob, .closeJob, .startJob, .stopJob, .preset, .read, .loadPoints, .commitPoints, .hold, .release,
   .awaitJob, .cancelWait, .outputs, .makeJobRing, .dropJobRing, .restartJobRing, .makeReportRing,
   .dropReportRing, .tuneReportRing, .lineSetup]

/-- The kind a code names, none for a code outside the table of R175. -/
def Kind.ofCode (c : Byte) : Option Kind :=
  Kind.all.find? (fun k => k.code == c)

/-- The byte of a record at a byte offset (R174). -/
def JobRecord.byte (w : JobRecord) (k : Nat) : Byte :=
  w.extractLsb' (8 * k) 8

/-- The two bytes from a byte offset, little-endian (R174). -/
def JobRecord.half (w : JobRecord) (k : Nat) : BitVec 16 :=
  w.extractLsb' (8 * k) 16

/-- The four bytes from a byte offset, little-endian (R174). -/
def JobRecord.word (w : JobRecord) (k : Nat) : Word32 :=
  w.extractLsb' (8 * k) 32

/-- The eight bytes from a byte offset, little-endian (R174). -/
def JobRecord.quad (w : JobRecord) (k : Nat) : BitVec 64 :=
  w.extractLsb' (8 * k) 64

/-- The kind code, byte 0 (R175). -/
def JobRecord.kindCode (w : JobRecord) : Byte := w.byte 0

/-- A flag of byte 1 (R175). -/
def JobRecord.flag (w : JobRecord) (n : Nat) : Bool := (w.byte 1).getLsbD n

/-- The tag, bytes 2 to 3 (R175). -/
def JobRecord.tag (w : JobRecord) : BitVec 16 := w.half 2

/-- The session field, byte 4 (R175). -/
def JobRecord.session (w : JobRecord) : Byte := w.byte 4

/-- The command that a word of the opcode table spells: none, since no row of the table gives bits. -/
def decodeTableWord (_nbits _w : Nat) : Option Instr := none

end Sys2Proof
end

