-- ==== Sys2Proof/WellFormed.lean ====
section
/-!
DEFINITION. Which commands are well formed: a job row carries a record of its own kind (R175), an order operand names
no edge and no tick twice, a fetch brings no more points than a list holds (R69), a CONTROL write of a row has the bits that the
row names (R166), and REGISTER_WRITE is a write to a word of the window. `exec` gives every command a meaning, well
formed or not.
-/

namespace Sys2Proof

/-- A delivery of an edge, which an order names at most once. -/
def Delivery.isEdge (d : Delivery) : Bool := d.2 != .mark

/-- The tick of a session, which an order names at most once. -/
def TickTurn.isTick (t : TickTurn) : Bool := t.2 == .tick

/-- The record carries the code of this kind (R175). -/
def JobRecord.isKind (w : JobRecord) (k : Kind) : Bool := w.kindCode == k.code

/-- The check of each command. -/
def Instr.wellFormed : Instr → Bool
  | .jobTake _ => true
  | .recordFetchError => true
  | .openJob rec => rec.isKind .openJob
  | .closeJob rec => rec.isKind .closeJob
  | .startJob rec => rec.isKind .startJob
  | .stopJob rec => rec.isKind .stopJob
  | .preset rec => rec.isKind .preset
  | .read rec => rec.isKind .read
  | .loadPoints rec => rec.isKind .loadPoints
  | .commitPoints rec => rec.isKind .commitPoints
  | .hold rec => rec.isKind .hold
  | .release rec => rec.isKind .release
  | .awaitJob rec => rec.isKind .awaitJob
  | .cancelWait rec => rec.isKind .cancelWait
  | .outputs rec => rec.isKind .outputs
  | .makeJobRing rec => rec.isKind .makeJobRing
  | .dropJobRing rec => rec.isKind .dropJobRing
  | .restartJobRing rec => rec.isKind .restartJobRing
  | .makeReportRing rec => rec.isKind .makeReportRing
  | .dropReportRing rec => rec.isKind .dropReportRing
  | .reportRingDropped => true
  | .tuneReportRing rec => rec.isKind .tuneReportRing
  | .lineSetup rec => rec.isKind .lineSetup
  | .pointFetchDone _ entries => decide (1 ≤ entries.length) && decide (entries.length ≤ Config.maxPoints)
  | .pointFetchError _ entry => decide (entry < Config.maxPoints)
  | .qualifiedEdge lines order => decide (lines ≠ 0) && decide (order.filter Delivery.isEdge).Nodup
  | .tick _ order => decide (order.filter TickTurn.isTick).Nodup
  | .windowTimerExpiry _ => true
  | .intervalWindowEnd _ => true
  | .paceMark _ => true
  | .pulseExpiry _ => true
  | .waitTimeout _ => true
  | .batchTimerExpiry _ => true
  | .reportWriteDone _ => true
  | .reportWriteError _ => true
  | .jpost _ => true
  | .rrelease _ => true
  | .intPending _ => true
  | .badIndexClear word => word.getLsbD 8
  | .run word => !word.getLsbD 1
  | .startUp word => word.getLsbD 0 && !word.getLsbD 1
  | .intEnable word => !word.getLsbD 1
  | .engineReset word => word.getLsbD 1
  | .engineResetEnd => true
  | .controlRegionWrite _ _ => true
  | .registerWrite offset _ => decide (offset % 4 = 0)
  | .hardwareReset => true
  | .resetNRise _ => true
  | .initialisationEnd => true
  | .rawPinSample _ order => decide (order.filter Delivery.isEdge).Nodup
  | .stampClockAdvance => true

end Sys2Proof
end

