-- ==== Sys2Proof/Machine/State.lean ====
section
/-!
DEFINITION. The state of the part as plain data: the queue of waiting commands, the register window, the session
entries with their point lists, the wait pool, the lines, the job-ring and report-ring tables, the timers, and the
bytes written to host memory. INVENTORY.md lists every field with its rule and its reset value.
-/

namespace Sys2Proof.Machine

/-- The block has no command that stops it: the spec gives every command an effect in every state or says that it is
ignored, so no constructor stands here (INVENTORY.md, Faults). -/
inductive Fault : Type
  deriving DecidableEq, Repr

/-- The model's refusals. -/
inductive Refusal where
  /-- A row without a meaning. Raised by no arm of `exec`; safe. -/
  | notModelled (mnemonic : String)
  deriving DecidableEq, Repr

/-! ### Codes -/

/-- The phases of the part between its resets (R167, R169, R172). READY is `ready`; CONTROL.RESET reads 1 in
`engineReset`. -/
inductive Phase where
  | hardwareReset
  | initialising
  | ready
  | engineReset
  deriving DecidableEq, Repr

/-- STATUS.FATAL with its cause: FATAL is set exactly when the cause is not `none` (R167). -/
inductive FatalCause where
  | none
  | config
  | rr0Broken
  deriving DecidableEq, Repr

/-- The lifecycle state of a session (R2). -/
inductive SessionState where
  | free
  | idle
  | active
  | faulted
  deriving DecidableEq, Repr

/-- The kinds of measurement (R1). -/
inductive Mode where
  | tally
  | quad
  | split
  | rate
  | span
  | interval
  deriving DecidableEq, Repr

/-- The edges counted in TALLY and RATE (R23). -/
inductive EdgeSelect where
  | rising
  | falling
  | both
  deriving DecidableEq, Repr

/-- The quadrature resolutions (R25). -/
inductive Resolution where
  | x1
  | x2
  | x4
  deriving DecidableEq, Repr

/-- The illegal-step policies (R26). -/
inductive StepPolicy where
  | tallyOnly
  | fault
  deriving DecidableEq, Repr

/-- What ends a RATE or INTERVAL window (R42). -/
inductive WindowSource where
  | own
  | pacer
  deriving DecidableEq, Repr

/-- Why a session is FAULTED (R1). -/
inductive FaultCause where
  | illegalStep
  deriving DecidableEq, Repr

/-- The direction of a step (file 00). -/
inductive Direction where
  | up
  | down
  deriving DecidableEq, Repr

/-- The directions a point or a REACH wait passes (R61, R102). -/
inductive DirFilter where
  | up
  | down
  | either
  deriving DecidableEq, Repr

/-- What an OUTPUT action does to its line (R65). -/
inductive OutputKind where
  | set
  | clear
  | pulse
  deriving DecidableEq, Repr

/-- The commit modes of a load (R75). NOW is never the mode of a staged list at rest. -/
inductive CommitMode where
  | now
  | atWrap
  | atWindow
  | onCommit
  deriving DecidableEq, Repr

/-- The status codes (R179). -/
inductive Status where
  | success
  | metAtEntry
  | timeout
  | cancelled
  | sessionStopped
  | sessionClosed
  | sessionFault
  | pacerLost
  | badKind
  | wrongRing
  | badSession
  | notOwner
  | wrongState
  | badParam
  | noSession
  | sessionTaken
  | lineBusy
  | outputTaken
  | bound
  | pointInvalid
  | noStaged
  | noWaitSpace
  | fetchError
  | ringExists
  | noRing
  | inUse
  | illegalStep
  | jrBroken
  | rrBroken
  deriving DecidableEq, Repr

/-- The classes of status (R179). -/
inductive StatusClass where
  | success
  | outcome
  | refusal
  | notice
  deriving DecidableEq, Repr

/-! ### Records -/

/-- The flags of a report record (R178, byte 2). -/
structure RecordFlags where
  replaced : Bool := false
  isPartial : Bool := false
  wrapped : Bool := false
  down : Bool := false
  captureEmpty : Bool := false
  deriving DecidableEq, Repr

/-- The kinds of unsolicited record (R178). -/
inductive UnsolicitedKind where
  | point
  | sample
  | notice
  deriving DecidableEq, Repr

/-- The fields that differ between JOB records and unsolicited records (R178: bytes 1, 5, 6 and 7). -/
inductive RecordBody where
  | job (ring : JobRingId) (takenIndex : Nat) (tag : BitVec 16)
  | unsolicited (kind : UnsolicitedKind) (pointIndex : Nat) (seq : BitVec 8) (lost : Nat)
  deriving DecidableEq, Repr

/-- A report record without its lap bit, which the Report Writer sets at placing (R136, R145, R178). -/
structure ReportRecord where
  body : RecordBody
  status : Status
  /-- 0 to 31, or 255 -/
  session : Byte
  value : Word32
  flags : RecordFlags
  stamp : Word32
  deriving DecidableEq, Repr

/-- A record that holds a slot and has not been written yet (R146). `owner` is the session whose lost count rises if
the write fails (R153), cleared when that session is closed (log 16). -/
structure Placed where
  slot : Nat
  lap : Bool
  record : ReportRecord
  owner : Option SessionId
  deriving DecidableEq, Repr

/-! ### Sessions and points -/

/-- The hold set (R81). -/
structure HoldSet where
  host : Bool := false
  inhibit : Bool := false
  pacer : Bool := false
  deriving DecidableEq, Repr

/-- The capture latch (R36). -/
structure Capture where
  valid : Bool := false
  value : Nat := 0
  stamp : Word32 := 0
  deriving DecidableEq, Repr

/-- The actions of a point (R59). The output line and kind are present only with OUTPUT. -/
structure Actions where
  latch : Bool := false
  report : Bool := false
  output : Option (OutputId × OutputKind) := none
  pace : Bool := false
  zero : Bool := false
  hold : Bool := false
  deriving DecidableEq, Repr

/-- A set-point (R59). -/
structure Point where
  value : Nat
  filter : DirFilter
  actions : Actions
  deriving DecidableEq, Repr

/-- A staged list with its commit mode (R60). -/
structure StagedList where
  points : List Point
  mode : CommitMode
  deriving DecidableEq, Repr

/-- A session entry (R1). The default of each field is its value when FREE. The last two fields are the model's own:
`marksOut` holds the pace marks this pacer has handed out and its followers have not yet taken, one list for each event
that handed them, oldest first, each in follower-list order (log 10); `windowEndDue` says that a step has caused an
INTERVAL window end that has not been taken yet (log 11). -/
structure Session where
  state : SessionState := .free
  owner : Option JobRingId := none
  reportRing : Option ReportRingId := none
  mode : Option Mode := none
  lineA : Option LineId := none
  lineB : Option LineId := none
  inhibitLine : Option LineId := none
  edgeSelect : Option EdgeSelect := none
  resolution : Option Resolution := none
  policy : Option StepPolicy := none
  limit : Option Nat := none
  count : Nat := 0
  wraps : Nat := 0
  illegal : Nat := 0
  tick : Option TickRate := none
  windowSource : Option WindowSource := none
  windowLength : Option Nat := none
  elapsed : Nat := 0
  partialFlag : Bool := false
  wrappedFlag : Bool := false
  windowOpen : Bool := false
  pairRef : Option (Bool × Bool) := none
  reportWindows : Bool := false
  pacer : Option SessionId := none
  followers : List SessionId := []
  hold : HoldSet := {}
  capture : Capture := {}
  active : List Point := []
  staged : Option StagedList := none
  claims : BitVec 8 := 0
  outputsEnabled : Bool := false
  pulseWidth : Option Nat := none
  waits : List WaitId := []
  lost : Nat := 0
  seq : BitVec 8 := 0
  faultCause : Option FaultCause := none
  marksOut : List (List SessionId) := []
  windowEndDue : Bool := false
  deriving DecidableEq, Repr

/-! ### Waits -/

/-- The condition of a wait with its operand; WINDOWS also with its remaining windows (R96). -/
inductive WaitCond where
  | reach (value : Nat) (filter : DirFilter)
  | atLeast (value : Nat)
  | atMost (value : Nat)
  | windows (operand remaining : Nat)
  | idle
  deriving DecidableEq, Repr

/-- An outstanding wait entry (R96). `timer` is the timeout timer's reference periods still to go (R41), `reportRing`
the ring its reservation was made on (R111). -/
structure WaitEntry where
  session : SessionId
  ring : JobRingId
  tag : BitVec 16
  cond : WaitCond
  deadline : Option Word32
  timer : Option Nat
  reportRing : ReportRingId
  deriving DecidableEq, Repr

/-! ### Lines -/

/-- An input line of the Line Qualifier (R113). The qualified level is worked out from it. -/
structure InputLine where
  inverted : Bool := false
  width : Nat := Config.defaultFilterWidth
  accepted : Bool := false
  runCount : Nat := 0
  deriving DecidableEq, Repr

/-- An output line of the Match Output (R118). `timer` is the pulse timer's reference periods still to go. -/
structure OutputLine where
  owner : Option SessionId := none
  level : Bool := false
  timer : Option Nat := none
  deriving DecidableEq, Repr

/-! ### Rings -/

/-- The lifecycle state of a job ring (R125). -/
inductive JobRingState where
  | absent
  | running
  | halted
  | broken
  deriving DecidableEq, Repr

/-- A job-ring entry (R125). An ABSENT entry keeps the defaults (log 22). -/
structure JobRing where
  state : JobRingState := .absent
  base : Nat := 0
  size : Nat := 0
  post : Nat := 0
  take : Nat := 0
  bound : ReportRingId := 0
  haltFlag : Bool := false
  weight : Nat := 0
  fetchInFlight : Bool := false
  deriving DecidableEq, Repr

/-- What a take in progress is doing: the Bus Master Port reads its record's 32 bytes from an address (R130), or its
DROP_REPORT_RING waits for the last write of a ring (R156). -/
inductive TakeStage where
  | reading (address : Nat)
  | dropping (ring : ReportRingId) (tag : BitVec 16)
  deriving DecidableEq, Repr

/-- A take in progress (R130). -/
structure TakeInProgress where
  ring : JobRingId
  stage : TakeStage
  deriving DecidableEq, Repr

/-- The record of a point fetch in flight (R70). `orphan` says that the cascade has dropped its ring and it belongs to
no ring. `reportRing` is the ring its reservation was made on, `address` the address its reads begin at. -/
structure PointFetch where
  ring : JobRingId
  tag : BitVec 16
  session : SessionId
  points : Nat
  address : Nat
  mode : CommitMode
  isVoid : Bool := false
  orphan : Bool := false
  reportRing : ReportRingId
  deriving DecidableEq, Repr

/-- The lifecycle state of a report ring (R144). -/
inductive ReportRingState where
  | absent
  | opened
  | broken
  deriving DecidableEq, Repr

/-- Notification settings; the batch fields are held in BATCH only (R158). -/
inductive NotifyMode where
  | off
  | each
  | batch (count time : Nat)
  deriving DecidableEq, Repr

/-- A report-ring entry with its notification state (R143, R158). An ABSENT entry keeps the defaults (log 22). -/
structure ReportRing where
  state : ReportRingState := .absent
  base : Nat := 0
  size : Nat := 0
  writeIndex : Nat := 0
  lap : Bool := false
  releaseIndex : Nat := 0
  outstanding : Nat := 0
  reservations : Nat := 0
  store : List ReportRecord := []
  unwritten : List Placed := []
  notify : NotifyMode := .off
  unnotified : Nat := 0
  batchTimer : Option Nat := none
  deriving DecidableEq, Repr

/-- A bus write that was under way when a reset came (R143, log 17). -/
structure StrayWrite where
  ring : ReportRingId
  address : Nat
  data : BitVec 128
  deriving DecidableEq, Repr

/-! ### Host memory as the part has written it -/

/-- Bytes by address, addresses strictly rising (log 18). -/
abbrev Memory := List Host.Cell

/-! ### The whole state -/

/-- The state of the part. -/
structure State where
  pending : List Instr
  phase : Phase
  run : Bool
  intEnable : Bool
  fatalCause : FatalCause
  badIndex : Bool
  crBaseLo : Word32
  crBaseHi : Word32
  crJr0Size : BitVec 9
  crRr0Size : BitVec 9
  intPending : BitVec 8
  stamp : Word32
  refPhase : Nat
  lines : Vector InputLine 16
  outputs : Vector OutputLine 8
  pins : BitVec 8
  sessions : Vector Session 32
  waits : Vector (Option WaitEntry) 64
  jobRings : Vector JobRing 8
  turn : JobRingId
  turnLeft : Nat
  taking : Option TakeInProgress
  fetches : List PointFetch
  reportRings : Vector ReportRing 8
  rr0Lost : Nat
  strays : List StrayWrite
  hostMemory : Memory
  deriving DecidableEq, Repr

/-- The values of a hardware reset in force (R169, R1, R113, R118, R125, R129, R143; log 4, log 5, log 22). -/
def State.reset : State where
  pending := []
  phase := .hardwareReset
  run := false
  intEnable := false
  fatalCause := .none
  badIndex := false
  crBaseLo := 0
  crBaseHi := 0
  crJr0Size := 0
  crRr0Size := 0
  intPending := 0
  stamp := 0
  refPhase := 0
  lines := Vector.replicate 16 {}
  outputs := Vector.replicate 8 {}
  pins := 0
  sessions := Vector.replicate 32 {}
  waits := Vector.replicate 64 none
  jobRings := Vector.replicate 8 {}
  turn := 7
  turnLeft := 0
  taking := none
  fetches := []
  reportRings := Vector.replicate 8 {}
  rr0Lost := 0
  strays := []
  hostMemory := []

end Sys2Proof.Machine
end

