-- ==== Sys2Proof/Machine/Flags.lean ====
section
/-!
DEFINITION. Everything that is worked out from the parts of the state: status codes and classes, the counting
condition, the arithmetic of a step, quadrature transitions, the window flags, wait conditions, and the bits of
composite report values and of report records.
-/

namespace Sys2Proof.Machine

/-! ### Statuses (R179) -/

/-- The code of a status. -/
def Status.code : Status → Byte
  | .success => 0x00
  | .metAtEntry => 0x01
  | .timeout => 0x10
  | .cancelled => 0x11
  | .sessionStopped => 0x12
  | .sessionClosed => 0x13
  | .sessionFault => 0x14
  | .pacerLost => 0x15
  | .badKind => 0x20
  | .wrongRing => 0x21
  | .badSession => 0x22
  | .notOwner => 0x23
  | .wrongState => 0x24
  | .badParam => 0x25
  | .noSession => 0x26
  | .sessionTaken => 0x27
  | .lineBusy => 0x28
  | .outputTaken => 0x29
  | .bound => 0x2a
  | .pointInvalid => 0x2b
  | .noStaged => 0x2c
  | .noWaitSpace => 0x2d
  | .fetchError => 0x2e
  | .ringExists => 0x2f
  | .noRing => 0x30
  | .inUse => 0x31
  | .illegalStep => 0x40
  | .jrBroken => 0x41
  | .rrBroken => 0x42

/-- The class of a status. -/
def Status.cls : Status → StatusClass
  | .success | .metAtEntry => .success
  | .timeout | .cancelled | .sessionStopped | .sessionClosed | .sessionFault | .pacerLost => .outcome
  | .badKind | .wrongRing | .badSession | .notOwner | .wrongState | .badParam | .noSession | .sessionTaken
  | .lineBusy | .outputTaken | .bound | .pointInvalid | .noStaged | .noWaitSpace | .fetchError | .ringExists
  | .noRing | .inUse => .refusal
  | .illegalStep | .jrBroken | .rrBroken => .notice

/-! ### Counters -/

/-- One more, saturating at 65,535 (R26, R29, R149). -/
def satInc (n : Nat) : Nat := if n < Config.saturation then n + 1 else Config.saturation

/-- A number as a report value. -/
def toWord (n : Nat) : Word32 := BitVec.ofNat 32 n

/-- A session id, or a ring id, as a session field or a value byte. -/
def toByte (n : Nat) : Byte := BitVec.ofNat 8 n

/-- The session field of records that name no session (R136, R152). -/
def noSessionField : Byte := 255

/-! ### The hold set and the counting condition -/

/-- No reason for not counting is present (R81). -/
def HoldSet.isEmpty (h : HoldSet) : Bool := !h.host && !h.inhibit && !h.pacer

/-- A session counts when it is ACTIVE and its hold set is empty (R2). -/
def Session.counts (e : Session) : Bool := decide (e.state = .active) && e.hold.isEmpty

/-- The limit as a number; a FREE session has none (R1). -/
def Session.limitValue (e : Session) : Nat := e.limit.getD 0

/-! ### The step (R28) -/

/-- The count after a step, and whether the step wrapped. -/
def stepCount (dir : Direction) (count limit : Nat) : Nat × Bool :=
  match dir with
  | .up => if count < limit then (count + 1, false) else (0, true)
  | .down => if 0 < count then (count - 1, false) else (limit, true)

/-- Whether a filter passes a direction (R61, R102). -/
def DirFilter.passes (f : DirFilter) (d : Direction) : Bool :=
  match f, d with
  | .up, .up => true
  | .up, .down => false
  | .down, .up => false
  | .down, .down => true
  | .either, _ => true

/-- The point a step hits, with its index counted from `index` (R61). -/
def findHit (count : Nat) (dir : Direction) (index : Nat) : List Point → Option (Nat × Point)
  | [] => none
  | p :: rest =>
    if p.value = count ∧ p.filter.passes dir = true then some (index, p)
    else findHit count dir (index + 1) rest

/-- Whether an edge qualifies for an edge select; `rising` is the new level (R23). -/
def EdgeSelect.qualifies (sel : EdgeSelect) (rising : Bool) : Bool :=
  match sel with
  | .rising => rising
  | .falling => !rising
  | .both => true

/-- Whether a quarter transition is a step at the resolution: `aChanged` says that line A changed, `bLevel` is the
level of line B (R25). -/
def Resolution.takes (r : Resolution) (aChanged bLevel : Bool) : Bool :=
  match r with
  | .x4 => true
  | .x2 => aChanged
  | .x1 => aChanged && !bLevel

/-- The direction of a quarter transition to the levels (a, b), in which line A changed or else line B changed: UP is
along (0,0), (1,0), (1,1), (0,1) (R25). -/
def transitionDirection (aChanged a b : Bool) : Direction :=
  if aChanged then (if a = b then .down else .up) else (if a = b then .up else .down)

/-! ### Windows (R42, R44) -/

/-- A window or span begins: elapsed 0, flags clear, partial at once when the session is held. -/
def Session.beginWindow (e : Session) : Session :=
  { e with windowOpen := true, elapsed := 0, partialFlag := !e.hold.isEmpty, wrappedFlag := false }

/-- The window state when no window is in progress (R42, R57; log 23). -/
def Session.clearWindow (e : Session) : Session :=
  { e with windowOpen := false, elapsed := 0, partialFlag := false, wrappedFlag := false }

/-- HOST joins the hold set, which marks a window in progress partial (R44, R68, R83). -/
def Session.joinHost (e : Session) : Session :=
  if e.hold.host then e
  else { e with hold := { e.hold with host := true }, partialFlag := e.partialFlag || e.windowOpen }

/-- INHIBIT joins the hold set (R44, R86). -/
def Session.joinInhibit (e : Session) : Session :=
  if e.hold.inhibit then e
  else { e with hold := { e.hold with inhibit := true }, partialFlag := e.partialFlag || e.windowOpen }

/-- PACER joins the hold set; no window is in progress at a START (R87). -/
def Session.joinPacer (e : Session) : Session :=
  if e.hold.pacer then e
  else { e with hold := { e.hold with pacer := true }, partialFlag := e.partialFlag || e.windowOpen }

/-- Modes that have windows (R42). -/
def Mode.isTimed : Mode → Bool
  | .tally | .quad | .split => false
  | .rate | .span | .interval => true

/-- The session's window ends post a SAMPLE (R45). -/
def Session.postsSample (e : Session) : Bool :=
  match e.mode, e.windowSource with
  | some .interval, some .own => e.reportWindows
  | _, _ => true

/-- The value a SAMPLE reports (R46): the window length for an INTERVAL session with OWN source, else the count. -/
def Session.sampleValue (e : Session) : Nat :=
  match e.mode, e.windowSource with
  | some .interval, some .own => e.windowLength.getD 0
  | _, _ => e.count

/-! ### Point lists (R75) -/

/-- The staged list replaces the active list whole; with no staged list nothing changes. -/
def Session.commit (e : Session) : Session :=
  match e.staged with
  | none => e
  | some st => { e with active := st.points, staged := none }

/-- The commit at a moment, if the staged list waits for it (R77, R78). -/
def Session.commitAt (mode : CommitMode) (e : Session) : Session :=
  match e.staged with
  | none => e
  | some st => if st.mode = mode then e.commit else e

/-! ### Wait conditions (R102, R103) -/

/-- Met by a step to the count in the direction: REACH, AT_LEAST and AT_MOST. -/
def WaitCond.metByStep (count : Nat) (dir : Direction) : WaitCond → Bool
  | .reach v f => decide (count = v) && f.passes dir
  | .atLeast v => decide (v ≤ count)
  | .atMost v => decide (count ≤ v)
  | .windows _ _ => false
  | .idle => false

/-- Met by a change of count that is not a step: AT_LEAST and AT_MOST. -/
def WaitCond.metByChange (count : Nat) : WaitCond → Bool
  | .reach _ _ => false
  | .atLeast v => decide (v ≤ count)
  | .atMost v => decide (count ≤ v)
  | .windows _ _ => false
  | .idle => false

/-- The condition holds at the take (R100). -/
def WaitCond.metAtEntry (count : Nat) (state : SessionState) : WaitCond → Bool
  | .reach _ _ => false
  | .atLeast v => decide (v ≤ count)
  | .atMost v => decide (count ≤ v)
  | .windows _ _ => false
  | .idle => decide (state = .idle)

/-- What a session's entry into IDLE does to a wait: IDLE waits are met, the others end with the given status
(R105, R108). -/
def WaitCond.endedIdle (other : Status) : WaitCond → Option Status
  | .idle => some .success
  | _ => some other

/-- What a fault does to a wait: IDLE waits stay outstanding (R13, R108). -/
def WaitCond.endedFault : WaitCond → Option Status
  | .idle => none
  | _ => some .sessionFault

/-! ### Lines -/

/-- The qualified level (R113). -/
def InputLine.level (l : InputLine) : Bool := l.accepted != l.inverted

/-! ### Composite values (R178) -/

/-- The state field of READ STATE. -/
def SessionState.bits : SessionState → Nat
  | .free => 0
  | .idle => 1
  | .active => 2
  | .faulted => 3

/-- The value of READ STATE (R37, R178). -/
def Session.stateValue (e : Session) : Word32 :=
  toWord (e.state.bits + (if e.hold.host then 2 ^ 8 else 0) + (if e.hold.inhibit then 2 ^ 9 else 0)
    + (if e.hold.pacer then 2 ^ 10 else 0) + (if e.faultCause.isSome then 2 ^ 16 else 0))

/-- The commit-mode field of READ LISTS. -/
def CommitMode.bits : CommitMode → Nat
  | .now => 0
  | .atWrap => 1
  | .atWindow => 2
  | .onCommit => 3

/-- The value of READ LISTS (R38, R178). -/
def Session.listsValue (e : Session) : Word32 :=
  match e.staged with
  | none => toWord e.active.length
  | some st => toWord (e.active.length + 2 ^ 8 + st.points.length * 2 ^ 16 + st.mode.bits * 2 ^ 24)

/-- The value of NOTICE JR_BROKEN (R132, R178). -/
def jrBrokenValue (ring : JobRingId) (takeIndex : Nat) : Word32 := toWord (ring.val + takeIndex % 1024 * 2 ^ 16)

/-! ### The layout of a report record (R178) -/

/-- Byte 2. -/
def RecordFlags.bits (f : RecordFlags) : Byte :=
  (if f.replaced then 1 else 0) ||| (if f.isPartial then 2 else 0) ||| (if f.wrapped then 4 else 0)
    ||| (if f.down then 8 else 0) ||| (if f.captureEmpty then 16 else 0)

/-- The kind field of byte 0. -/
def RecordBody.kindBits : RecordBody → Byte
  | .job _ _ _ => 0
  | .unsolicited .point _ _ _ => 1
  | .unsolicited .sample _ _ _ => 2
  | .unsolicited .notice _ _ _ => 3

/-- Byte 1: source job ring and bits 8 to 9 of the taken index, or the point index. -/
def RecordBody.byte1 : RecordBody → Byte
  | .job ring taken _ => toByte (ring.val + taken / 256 % 4 * 16)
  | .unsolicited _ index _ _ => toByte (index % 16)

/-- Byte 5: bits 0 to 7 of the taken index, or the sequence. -/
def RecordBody.byte5 : RecordBody → Byte
  | .job _ taken _ => toByte taken
  | .unsolicited _ _ seq _ => seq

/-- Bytes 6 to 7: the tag, or the lost count. -/
def RecordBody.half6 : RecordBody → BitVec 16
  | .job _ _ tag => tag
  | .unsolicited _ _ _ lost => BitVec.ofNat 16 lost

/-- The sixteen bytes of a record as one number, byte k at bits 8k to 8k+7 (R174, R178). -/
def ReportRecord.encode (r : ReportRecord) (lap : Bool) : BitVec 128 :=
  r.stamp ++ r.value ++ r.body.half6 ++ r.body.byte5 ++ r.session ++ r.status.code ++ r.flags.bits ++ r.body.byte1
    ++ (r.body.kindBits ||| if lap then 0x80 else 0)

/-- The session whose lost count a failed write of the record raises (R153): that of an unsolicited record that names
one. -/
def ReportRecord.sessionOf (r : ReportRecord) : Option SessionId :=
  match r.body with
  | .job _ _ _ => none
  | .unsolicited _ _ _ _ => if h : r.session.toNat < 32 then some ⟨r.session.toNat, h⟩ else none

end Sys2Proof.Machine
end

