-- ==== Sys2Proof/Machine/Operands.lean ====
section
/-!
DEFINITION. The operand forms: the parameters of each job kind at their byte offsets with their codes and ranges
(R176, R7, R69, R98), the point entry (R177, R73), and the fields of the register words (R180).
-/

namespace Sys2Proof.Machine

/-! ### Codes of one byte (R176) -/

/-- An input line, 0 to 15. -/
def lineOf (b : Byte) : Option LineId :=
  if h : b.toNat < 16 then some ⟨b.toNat, h⟩ else none

/-- A session id, 0 to 31. -/
def sessionOf (b : Byte) : Option SessionId :=
  if h : b.toNat < 32 then some ⟨b.toNat, h⟩ else none

/-- A job-ring id, 0 to 7. -/
def jobRingOf (b : Byte) : Option JobRingId :=
  if h : b.toNat < 8 then some ⟨b.toNat, h⟩ else none

/-- A report-ring id, 0 to 7. -/
def reportRingOf (b : Byte) : Option ReportRingId :=
  if h : b.toNat < 8 then some ⟨b.toNat, h⟩ else none

/-- An output line, 0 to 7. -/
def outputOf (b : Byte) : Option OutputId :=
  if h : b.toNat < 8 then some ⟨b.toNat, h⟩ else none

/-- The mode codes. -/
def modeOf (b : Byte) : Option Mode :=
  match b.toNat with
  | 0 => some .tally
  | 1 => some .quad
  | 2 => some .split
  | 3 => some .rate
  | 4 => some .span
  | 5 => some .interval
  | _ => none

/-- The edge-select codes. -/
def edgeSelectOf (b : Byte) : Option EdgeSelect :=
  match b.toNat with
  | 0 => some .rising
  | 1 => some .falling
  | 2 => some .both
  | _ => none

/-- The resolution codes. -/
def resolutionOf (b : Byte) : Option Resolution :=
  match b.toNat with
  | 0 => some .x1
  | 1 => some .x2
  | 2 => some .x4
  | _ => none

/-- The policy codes. -/
def policyOf (b : Byte) : Option StepPolicy :=
  match b.toNat with
  | 0 => some .tallyOnly
  | 1 => some .fault
  | _ => none

/-- The tick codes. -/
def tickOf (b : Byte) : Option TickRate :=
  match b.toNat with
  | 0 => some .ns10
  | 1 => some .ns100
  | 2 => some .us1
  | 3 => some .us10
  | 4 => some .us100
  | _ => none

/-- The window-source codes. -/
def windowSourceOf (b : Byte) : Option WindowSource :=
  match b.toNat with
  | 0 => some .own
  | 1 => some .pacer
  | _ => none

/-- The commit-mode codes. -/
def commitModeOf (b : Byte) : Option CommitMode :=
  match b.toNat with
  | 0 => some .now
  | 1 => some .atWrap
  | 2 => some .atWindow
  | 3 => some .onCommit
  | _ => none

/-- The direction codes of AWAIT and of a point entry. -/
def dirFilterOf (b : Byte) : Option DirFilter :=
  match b.toNat with
  | 0 => some .up
  | 1 => some .down
  | 2 => some .either
  | _ => none

/-- The output-kind codes (R177). -/
def outputKindOf (b : Byte) : Option OutputKind :=
  match b.toNat with
  | 0 => some .set
  | 1 => some .clear
  | 2 => some .pulse
  | _ => none

/-- The items of READ (R34). -/
inductive ReadItem where
  | count
  | capture
  | state
  | wraps
  | illegal
  | lists
  deriving DecidableEq, Repr

/-- The item codes. -/
def readItemOf (b : Byte) : Option ReadItem :=
  match b.toNat with
  | 0 => some .count
  | 1 => some .capture
  | 2 => some .state
  | 3 => some .wraps
  | 4 => some .illegal
  | 5 => some .lists
  | _ => none

/-- The setting of OUTPUTS. -/
def settingOf (b : Byte) : Option Bool :=
  match b.toNat with
  | 0 => some false
  | 1 => some true
  | _ => none

/-- The polarity codes of LINE_SETUP; true is INVERTED. -/
def polarityOf (b : Byte) : Option Bool :=
  match b.toNat with
  | 0 => some false
  | 1 => some true
  | _ => none

/-! ### OPEN (R7) -/

/-- A window length, 1 to 16,777,215. -/
def windowLengthOf (w : Word32) : Option Nat :=
  if 1 ≤ w.toNat ∧ w.toNat ≤ Config.maxWindowLength then some w.toNat else none

/-- A limit, 1 to 4,294,967,295. -/
def limitOf (w : Word32) : Option Nat :=
  if 1 ≤ w.toNat then some w.toNat else none

/-- The parameters that the mode requires, each from its range; a parameter the mode ignores is absent. None is
BAD_PARAM (R7). -/
def openModeSetup (w : JobRecord) (mode : Mode) : Option Session :=
  match mode with
  | .tally => do
    let a ← lineOf (w.byte 10)
    let sel ← edgeSelectOf (w.byte 13)
    some { mode := some .tally, lineA := some a, edgeSelect := some sel }
  | .quad => do
    let a ← lineOf (w.byte 10)
    let b ← lineOf (w.byte 11)
    let res ← resolutionOf (w.byte 14)
    let pol ← policyOf (w.byte 15)
    if a = b then none
    else some { mode := some .quad, lineA := some a, lineB := some b, resolution := some res, policy := some pol }
  | .split => do
    let a ← lineOf (w.byte 10)
    let b ← lineOf (w.byte 11)
    if a = b then none else some { mode := some .split, lineA := some a, lineB := some b }
  | .rate => do
    let a ← lineOf (w.byte 10)
    let sel ← edgeSelectOf (w.byte 13)
    match ← windowSourceOf (w.byte 21) with
    | .own => do
      let t ← tickOf (w.byte 20)
      let len ← windowLengthOf (w.word 24)
      some { mode := some .rate, lineA := some a, edgeSelect := some sel, tick := some t,
             windowSource := some .own, windowLength := some len }
    | .pacer => do
      let p ← sessionOf (w.byte 22)
      some { mode := some .rate, lineA := some a, edgeSelect := some sel, windowSource := some .pacer,
             pacer := some p }
  | .span => do
    let a ← lineOf (w.byte 10)
    let t ← tickOf (w.byte 20)
    some { mode := some .span, lineA := some a, tick := some t }
  | .interval => do
    let t ← tickOf (w.byte 20)
    match ← windowSourceOf (w.byte 21) with
    | .own => do
      let len ← windowLengthOf (w.word 24)
      if (w.word 16).toNat < len then none
      else some { mode := some .interval, tick := some t, windowSource := some .own, windowLength := some len,
                  reportWindows := w.flag 1 }
    | .pacer => do
      let p ← sessionOf (w.byte 22)
      some { mode := some .interval, tick := some t, windowSource := some .pacer, pacer := some p }

/-- The inhibit line: 255 is absent, else a line that is neither line A nor line B of the setup. The outer none is
BAD_PARAM (R7). -/
def inhibitOf (b : Byte) (setup : Session) : Option (Option LineId) :=
  if b = 255 then some none
  else
    match lineOf b with
    | none => none
    | some l => if setup.lineA = some l ∨ setup.lineB = some l then none else some (some l)

/-- The configuration that R7 accepts from an OPEN record, with the state and every result field as in a FREE entry;
none is BAD_PARAM. -/
def openSetup (w : JobRecord) : Option Session := do
  let mode ← modeOf (w.byte 9)
  let limit ← limitOf (w.word 16)
  let setup ← openModeSetup w mode
  let inhibit ← inhibitOf (w.byte 12) setup
  if w.byte 23 ≠ 0 ∧ w.half 28 = 0 then none
  else
    some { setup with
      limit := some limit
      inhibitLine := inhibit
      claims := w.byte 23
      pulseWidth := if w.byte 23 = 0 then none else some (w.half 28).toNat }

/-! ### AWAIT (R98) -/

/-- The condition of an AWAIT on a session of this limit and mode; none is BAD_PARAM. -/
def awaitCond (w : JobRecord) (limit : Nat) (timed : Bool) : Option WaitCond :=
  let v := (w.word 12).toNat
  match (w.byte 8).toNat with
  | 0 =>
    match dirFilterOf (w.byte 9) with
    | none => none
    | some f => if v ≤ limit then some (.reach v f) else none
  | 1 => if v ≤ limit then some (.atLeast v) else none
  | 2 => if v ≤ limit then some (.atMost v) else none
  | 3 => if timed = true ∧ 1 ≤ v ∧ v ≤ 65535 then some (.windows v v) else none
  | 4 => some .idle
  | _ => none

/-! ### LOAD_POINTS (R69) -/

/-- The refusal of a LOAD_POINTS before any fetch, with its value; none passes. -/
def loadRefusal (w : JobRecord) (timed : Bool) : Option (Status × Nat) :=
  let n := (w.byte 8).toNat
  let address := (w.quad 16).toNat
  match commitModeOf (w.byte 9) with
  | none => some (.badParam, 0)
  | some mode =>
    if mode = .atWindow ∧ timed = false then some (.badParam, 0)
    else if Config.maxPoints < n then some (.pointInvalid, 16)
    else if n = 0 then none
    else if address % 8 ≠ 0 then some (.badParam, 0)
    else if Config.addressSpace < address + 8 * n then some (.badParam, 0)
    else none

/-! ### Point entries (R73, R177) -/

/-- The byte of a point entry at a byte offset. -/
def entryByte (p : PointEntry) (k : Nat) : Byte := p.extractLsb' (8 * k) 8

/-- The OUTPUT action of an entry: absent without OUTPUT in the actions, else a claimed line and a kind. The outer
none is a failed check. -/
def outputActionOf (p : PointEntry) (claims : BitVec 8) : Option (Option (OutputId × OutputKind)) :=
  if (entryByte p 5).getLsbD 2 then
    match outputOf (entryByte p 6), outputKindOf (entryByte p 7) with
    | some line, some kind => if claims.getLsbD line.val then some (some (line, kind)) else none
    | _, _ => none
  else some none

/-- One point of the array, checked against the value of the point before it, the limit and the claims. -/
def pointOf (p : PointEntry) (previous : Option Nat) (limit : Nat) (claims : BitVec 8) : Option Point :=
  let value := (p.extractLsb' 0 32).toNat
  let actions := entryByte p 5
  match dirFilterOf (entryByte p 4), outputActionOf p claims with
  | some filter, some output =>
    if previous.all (· < value) = true ∧ value ≤ limit ∧ actions.getLsbD 6 = false ∧ actions.getLsbD 7 = false then
      some
        { value, filter
          actions :=
            { latch := actions.getLsbD 0, report := actions.getLsbD 1, output, pace := actions.getLsbD 3,
              zero := actions.getLsbD 4, hold := actions.getLsbD 5 } }
    else none
  | _, _ => none

/-- The whole array: the list, or the index of the first point that fails a check (R73). -/
def checkPoints (limit : Nat) (claims : BitVec 8) (index : Nat) (previous : Option Nat) :
    List PointEntry → Except Nat (List Point)
  | [] => .ok []
  | p :: rest =>
    match pointOf p previous limit claims with
    | none => .error index
    | some point =>
      match checkPoints limit claims (index + 1) (some point.value) rest with
      | .error i => .error i
      | .ok points => .ok (point :: points)

/-! ### Ring parameters (R140, R155, R163) -/

/-- The notification settings; the batch fields are checked and kept in BATCH only. None is BAD_PARAM (R163). -/
def notifyOf (mode count : Byte) (time : BitVec 16) : Option NotifyMode :=
  match mode.toNat with
  | 0 => some .off
  | 1 => some .each
  | 2 => if 1 ≤ count.toNat ∧ 1 ≤ time.toNat then some (.batch count.toNat time.toNat) else none
  | _ => none

/-- The geometry checks of a ring of slots of `slot` bytes: size 2 to 1,024, base a multiple of the slot, the last
byte within the address space (R140, R155). -/
def ringGeometryOk (slot size base : Nat) : Bool :=
  decide (2 ≤ size) && decide (size ≤ 1024) && decide (base % slot = 0) &&
    decide (base + slot * size ≤ Config.addressSpace)

/-! ### Register words (R180) -/

/-- The index field of JPOST and RRELEASE. -/
def indexField (w : Word32) : Nat := (w.extractLsb' 0 16).toNat

/-- The ring-id field of JPOST and RRELEASE. -/
def ringField (w : Word32) : Byte := w.extractLsb' 24 8

/-- CONTROL, bit 0. -/
def controlRun (w : Word32) : Bool := w.getLsbD 0

/-- CONTROL, bit 1. -/
def controlReset (w : Word32) : Bool := w.getLsbD 1

/-- CONTROL, bit 2. -/
def controlIntEnable (w : Word32) : Bool := w.getLsbD 2

/-- STATUS, bit 8. -/
def statusBadIndex (w : Word32) : Bool := w.getLsbD 8

end Sys2Proof.Machine
end

