-- ==== Sys2Proof/Machine/Ops.lean ====
section
/-!
DEFINITION. The named operations over the state that more than one command uses: reading and updating an entry, host
memory as the part writes it, placing, parking, dropping and draining report records, answering a job, completing a
wait, handing pace marks, and driving an output line. Taking no exception: a block has none.
-/

namespace Sys2Proof.Machine

/-! ### Reading and updating the entries -/

/-- A session entry. -/
def State.session (s : State) (i : SessionId) : Session := s.sessions[i]

/-- Replace a session entry. -/
def State.setSession (s : State) (i : SessionId) (e : Session) : State :=
  { s with sessions := s.sessions.set i.val e }

/-- Change a session entry. -/
def State.updSession (s : State) (i : SessionId) (f : Session → Session) : State := s.setSession i (f (s.session i))

/-- A wait entry; none is a free entry. -/
def State.wait (s : State) (i : WaitId) : Option WaitEntry := s.waits[i]

/-- Replace a wait entry. -/
def State.setWait (s : State) (i : WaitId) (e : Option WaitEntry) : State :=
  { s with waits := s.waits.set i.val e }

/-- An input line. -/
def State.line (s : State) (i : LineId) : InputLine := s.lines[i]

/-- Replace an input line. -/
def State.setLine (s : State) (i : LineId) (e : InputLine) : State :=
  { s with lines := s.lines.set i.val e }

/-- An output line. -/
def State.output (s : State) (i : OutputId) : OutputLine := s.outputs[i]

/-- Replace an output line. -/
def State.setOutput (s : State) (i : OutputId) (e : OutputLine) : State :=
  { s with outputs := s.outputs.set i.val e }

/-- A job-ring entry. -/
def State.jobRing (s : State) (i : JobRingId) : JobRing := s.jobRings[i]

/-- Replace a job-ring entry. -/
def State.setJobRing (s : State) (i : JobRingId) (e : JobRing) : State :=
  { s with jobRings := s.jobRings.set i.val e }

/-- Change a job-ring entry. -/
def State.updJobRing (s : State) (i : JobRingId) (f : JobRing → JobRing) : State := s.setJobRing i (f (s.jobRing i))

/-- A report-ring entry. -/
def State.reportRing (s : State) (i : ReportRingId) : ReportRing := s.reportRings[i]

/-- Replace a report-ring entry. -/
def State.setReportRing (s : State) (i : ReportRingId) (e : ReportRing) : State :=
  { s with reportRings := s.reportRings.set i.val e }

/-- Change a report-ring entry. -/
def State.updReportRing (s : State) (i : ReportRingId) (f : ReportRing → ReportRing) : State :=
  s.setReportRing i (f (s.reportRing i))

/-- Every session id, in increasing order. -/
def allSessions : List SessionId := List.finRange 32

/-- Every job-ring id, in increasing order. -/
def allJobRings : List JobRingId := List.finRange 8

/-- Every report-ring id, in increasing order. -/
def allReportRings : List ReportRingId := List.finRange 8

/-- Every input line. -/
def allLines : List LineId := List.finRange 16

/-- Every output line. -/
def allOutputs : List OutputId := List.finRange 8

/-- Every wait entry, lowest number first. -/
def allWaits : List WaitId := List.finRange 64

/-- The device is FATAL (R167). -/
def State.isFatal (s : State) : Bool := decide (s.fatalCause ≠ .none)

/-- The qualified level of a line (R113). -/
def State.level (s : State) (l : LineId) : Bool := (s.line l).level

/-! ### Host memory (log 18) -/

/-- The byte the part has last written at an address; none where it has written nothing. -/
def Memory.read (m : Memory) (a : Nat) : Option Byte :=
  match m with
  | [] => none
  | (k, b) :: rest => if k = a then some b else Memory.read rest a

/-- Write one byte, keeping addresses strictly rising. -/
def Memory.write (m : Memory) (a : Nat) (b : Byte) : Memory :=
  match m with
  | [] => [(a, b)]
  | (k, v) :: rest =>
    if a < k then (a, b) :: (k, v) :: rest
    else if a = k then (a, b) :: rest
    else (k, v) :: Memory.write rest a b

/-- Write bytes from an address upward. -/
def Memory.writeBytes (m : Memory) (a : Nat) : List Byte → Memory
  | [] => m
  | b :: rest => Memory.writeBytes (m.write a b) (a + 1) rest

/-- The canonical form: addresses strictly rising. An unlisted address reads as no value, so no entry equals what an
unlisted address reads as. -/
def Memory.wf : Memory → Bool
  | [] => true
  | [_] => true
  | x :: y :: rest => decide (x.1 < y.1) && Memory.wf (y :: rest)

/-- The sixteen bytes of a report record, lowest address first (R174). -/
def recordBytes (w : BitVec 128) : List Byte := (List.range 16).map (fun k => w.extractLsb' (8 * k) 8)

/-! ### Placing records in a report ring -/

/-- The free space of a ring (R148). -/
def ReportRing.freeSpace (r : ReportRing) : Nat := r.size - r.outstanding - r.reservations

/-- Placing: the record takes the slot at the write index with the lap bit, the write index advances, outstanding
rises (R145). -/
def ReportRing.place (r : ReportRing) (rec : ReportRecord) : ReportRing :=
  { r with
    writeIndex := if r.writeIndex + 1 = r.size then 0 else r.writeIndex + 1
    lap := if r.writeIndex + 1 = r.size then !r.lap else r.lap
    outstanding := r.outstanding + 1
    unwritten := r.unwritten ++ [{ slot := r.writeIndex, lap := r.lap, record := rec, owner := rec.sessionOf }] }

/-- A JOB record consumes a reservation (R145, R148). -/
def ReportRing.placeJob (r : ReportRing) (rec : ReportRecord) : ReportRing :=
  { r.place rec with reservations := r.reservations - 1 }

/-- An unsolicited record at an OPEN ring: written at once, parked, or none when it is dropped (R149). -/
def ReportRing.offer (r : ReportRing) (rec : ReportRecord) : Option ReportRing :=
  if r.store = [] ∧ 1 ≤ r.freeSpace then some (r.place rec)
  else if r.store.length < Config.maxStore then some { r with store := r.store ++ [rec] }
  else none

/-- The drain over the records of the pending store, oldest first (R150). -/
def drainList : List ReportRecord → ReportRing → ReportRing
  | [], r => { r with store := [] }
  | rec :: rest, r =>
    if 1 ≤ r.freeSpace then drainList rest (r.place rec)
    else { r with store := rec :: rest }

/-- Freed places take parked records from the head of the pending store (R150). -/
def ReportRing.drain (r : ReportRing) : ReportRing := drainList r.store r

/-- Hand a JOB record to the Report Writer: placed in an OPEN ring, discarded otherwise (R145, R154). -/
def handJob (ring : ReportRingId) (rec : ReportRecord) (s : State) : State :=
  if (s.reportRing ring).state = .opened then s.updReportRing ring (·.placeJob rec) else s

/-- A reservation returned to its ring if that ring is OPEN; the place is offered to the pending store (R148). -/
def returnReservation (ring : ReportRingId) (s : State) : State :=
  if (s.reportRing ring).state = .opened then
    s.updReportRing ring (fun r => ReportRing.drain { r with reservations := r.reservations - 1 })
  else s

/-- A record of a session takes its sequence number and, when it is written or parked, its lost count (R151). -/
def Session.tookRecord (e : Session) : Session := { e with seq := e.seq + 1, lost := 0 }

/-- A record of a session that is dropped or discarded (R149, R151, R154). -/
def Session.droppedRecord (e : Session) : Session := { e with seq := e.seq + 1, lost := satInc e.lost }

/-- The next unsolicited record of a session (R46, R64, R93). -/
def sessionRecord (i : SessionId) (e : Session) (kind : UnsolicitedKind) (status : Status) (index value : Nat)
    (flags : RecordFlags) (stamp : Word32) : ReportRecord :=
  { body := .unsolicited kind index e.seq e.lost, status, session := toByte i.val, value := toWord value, flags, stamp }

/-- A session produces an unsolicited record for its report ring (R149, R151, R154). -/
def postRecord (i : SessionId) (kind : UnsolicitedKind) (status : Status) (index value : Nat) (flags : RecordFlags)
    (s : State) : State :=
  let e := s.session i
  let rec' := sessionRecord i e kind status index value flags s.stamp
  match e.reportRing with
  | none => s.setSession i e.droppedRecord
  | some r =>
    if (s.reportRing r).state = .opened then
      match (s.reportRing r).offer rec' with
      | some ring => (s.setReportRing r ring).setSession i e.tookRecord
      | none => s.setSession i e.droppedRecord
    else s.setSession i e.droppedRecord

/-- A ring-level NOTICE for RR0 (R132, R152, R153). -/
def postRingNotice (status : Status) (value : Word32) (s : State) : State :=
  let rec' : ReportRecord :=
    { body := .unsolicited .notice 0 0 s.rr0Lost, status, session := noSessionField, value, flags := {}, stamp := s.stamp }
  if (s.reportRing 0).state = .opened then
    match (s.reportRing 0).offer rec' with
    | some ring => { s.setReportRing 0 ring with rr0Lost := 0 }
    | none => { s with rr0Lost := satInc s.rr0Lost }
  else s

/-! ### Answering jobs -/

/-- What a job's rule gives for its JOB record (R136). -/
structure Answer where
  status : Status
  session : Byte
  value : Word32 := 0
  flags : RecordFlags := {}
  stamp : Word32
  deriving DecidableEq, Repr

/-- The JOB record of an answer, with the ring's take index as it stands at the hand-off (R136, log 13). -/
def jobRecord (ring : JobRingId) (taken : Nat) (tag : BitVec 16) (a : Answer) : ReportRecord :=
  { body := .job ring taken tag, status := a.status, session := a.session, value := a.value, flags := a.flags,
    stamp := a.stamp }

/-- A ring whose halt flag is set halts on a refusal (R139). -/
def JobRing.afterAnswer (j : JobRing) (status : Status) : JobRing :=
  if status.cls = .refusal ∧ j.haltFlag = true ∧ j.state = .running then { j with state := .halted } else j

/-- The answer of a job: its JOB record to the ring its reservation was made on, and halt on error (R131, R135,
R136, R139). -/
def answer (ring : JobRingId) (report : ReportRingId) (tag : BitVec 16) (a : Answer) (s : State) : State :=
  (handJob report (jobRecord ring (s.jobRing ring).take tag a) s).updJobRing ring (·.afterAnswer a.status)

/-- The answer of a job that completes within its take, to the bound report ring. -/
def answerNow (ring : JobRingId) (w : JobRecord) (a : Answer) (s : State) : State :=
  answer ring (s.jobRing ring).bound w.tag a s

/-- A work job is answered with a status and a value; the session field is echoed (R136). -/
def reply (ring : JobRingId) (w : JobRecord) (status : Status) (value : Nat) (s : State) : State :=
  answerNow ring w { status, session := w.session, value := toWord value, stamp := s.stamp } s

/-- A control job is answered; its record carries session 255 (R134, R136). -/
def replyControl (ring : JobRingId) (w : JobRecord) (status : Status) (value : Nat) (s : State) : State :=
  answerNow ring w { status, session := noSessionField, value := toWord value, stamp := s.stamp } s

/-! ### Completing waits (R106) -/

/-- The wait leaves its session's list, its timer stops and its entry is free (R97, R106). -/
def freeWait (w : WaitId) (s : State) : State :=
  match s.wait w with
  | none => s
  | some e => (s.setWait w none).updSession e.session (fun x => { x with waits := x.waits.erase w })

/-- An outstanding wait completes with a status, stamped as given (R106). -/
def completeWaitAt (w : WaitId) (status : Status) (stamp : Word32) (s : State) : State :=
  match s.wait w with
  | none => s
  | some e =>
    handJob e.reportRing
      (jobRecord e.ring (s.jobRing e.ring).take e.tag
        { status, session := toByte e.session.val, value := toWord (s.session e.session).count, stamp })
      (freeWait w s)

/-- An outstanding wait completes now. -/
def completeWait (w : WaitId) (status : Status) (s : State) : State := completeWaitAt w status s.stamp s

/-- The waits of the list for which the choice gives a status complete with it, in list order (R97, R108). -/
def completeList (choose : WaitCond → Option Status) : List WaitId → State → State
  | [], s => s
  | w :: rest, s =>
    match s.wait w with
    | none => completeList choose rest s
    | some e =>
      match choose e.cond with
      | none => completeList choose rest s
      | some status => completeList choose rest (completeWait w status s)

/-- The waits of a session for which the choice gives a status complete with it, in list order. -/
def completeWaits (i : SessionId) (choose : WaitCond → Option Status) (s : State) : State :=
  completeList choose (s.session i).waits s

/-- The waits of a session that the test meets complete SUCCESS, in list order (R103). -/
def meetWaits (i : SessionId) (met : WaitCond → Bool) (s : State) : State :=
  completeWaits i (fun c => if met c then some .success else none) s

/-- A wait is discarded without a record; its reservation returns to its ring (R19, R108). -/
def discardWait (w : WaitId) (s : State) : State :=
  match s.wait w with
  | none => s
  | some e => returnReservation e.reportRing (freeWait w s)

/-- A window end lowers the WINDOWS waits of the list; those that reach 0 complete (R104). -/
def lowerWindows : List WaitId → State → State
  | [], s => s
  | w :: rest, s =>
    match s.wait w with
    | some e =>
      match e.cond with
      | .windows n left =>
        let s' := s.setWait w (some { e with cond := .windows n (left - 1) })
        if left ≤ 1 then lowerWindows rest (completeWait w .success s') else lowerWindows rest s'
      | _ => lowerWindows rest s
    | none => lowerWindows rest s

/-! ### Pace marks and outputs -/

/-- One pace mark to each follower, in follower-list order (R58, R66, R89). A mark is taken later, as an event of the
follower (log 10). -/
def Session.handsMarks (e : Session) : Session :=
  if e.followers = [] then e else { e with marksOut := e.marksOut ++ [e.followers] }

/-- One pace mark to each follower of a session. -/
def handMarks (i : SessionId) (s : State) : State := s.updSession i Session.handsMarks

/-- The marks still out once a follower has taken its oldest; none when it has none to take. The marks of one event are
taken in list order, and one follower's in the order they were handed (R58, R89). -/
def marksAfter (f : SessionId) : List (List SessionId) → Option (List (List SessionId))
  | [] => none
  | g :: rest =>
    if f ∈ g then
      match g with
      | [] => none
      | x :: more => if x = f then some (if more = [] then rest else more :: rest) else none
    else (marksAfter f rest).map (g :: ·)

/-- The marks still out when those of one follower are void (R91). -/
def marksWithout (f : SessionId) (out : List (List SessionId)) : List (List SessionId) :=
  (out.map (fun g => g.filter (· ≠ f))).filter (· ≠ [])

/-- An OUTPUT action at its line; the width is the owner's pulse width (R120, R121). -/
def OutputLine.apply (o : OutputLine) (kind : OutputKind) (width : Nat) : OutputLine :=
  match kind with
  | .set => { o with level := true, timer := none }
  | .clear => { o with level := false, timer := none }
  | .pulse => { o with level := true, timer := some (Config.periodsPerMicro * width) }

/-- The line released by its owner: logical low, timer stopped, no owner (R119). -/
def OutputLine.released : OutputLine := {}

/-- The driven level of a line: high when its logical level is high and its owner's outputs are enabled (R118). -/
def State.driven (s : State) (l : OutputId) : Bool :=
  match (s.output l).owner with
  | none => false
  | some i => (s.output l).level && (s.session i).outputsEnabled

/-- The driven levels of the eight lines, bit n for OUTn. -/
def State.drivenLevels (s : State) : BitVec 8 :=
  allOutputs.foldl (fun acc l => if s.driven l then acc ||| (1#8 <<< l.val) else acc) 0

/-- INT_N is asserted (R162). -/
def State.intN (s : State) : Bool := s.intEnable && decide (s.intPending ≠ 0)

end Sys2Proof.Machine
end

