-- ==== Sys2Proof/Machine/Steps.lean ====
section
/-!
DEFINITION. The step of a session and its effects in the order of R30, the quadrature pair sample (R24 to R26) and the
fault of an illegal step (R13).
-/

namespace Sys2Proof.Machine

/-- Step 1 of R30: the count takes its new value; a wrap updates the wraps counter and, while a window is in progress,
the wrapped flag (R28, R29). -/
def Session.stepped (e : Session) (dir : Direction) : Session :=
  let r := stepCount dir e.count e.limitValue
  { e with
    count := r.1
    wraps := if r.2 then satInc e.wraps else e.wraps
    wrappedFlag := e.wrappedFlag || (r.2 && e.windowOpen) }

/-- Steps 1 and 2 of R30: a wrapping step also commits a list staged with AT_WRAP (R77). -/
def Session.steppedAndCommitted (e : Session) (dir : Direction) : Session :=
  if (stepCount dir e.count e.limitValue).2 then (e.stepped dir).commitAt .atWrap else e.stepped dir

/-- The LATCH action (R63). -/
def latchAction (i : SessionId) (s : State) : State :=
  s.updSession i (fun e => { e with capture := { valid := true, value := e.count, stamp := s.stamp } })

/-- The REPORT action (R64). -/
def reportAction (i : SessionId) (dir : Direction) (index : Nat) (s : State) : State :=
  postRecord i .point .success index (s.session i).count { down := decide (dir = .down) } s

/-- The OUTPUT action (R65). -/
def outputAction (i : SessionId) (line : OutputId) (kind : OutputKind) (s : State) : State :=
  s.setOutput line ((s.output line).apply kind ((s.session i).pulseWidth.getD 0))

/-- Step 3 of R30: the actions LATCH, REPORT, OUTPUT and PACE of the hit point, in that order (R62). -/
def hitActions (i : SessionId) (dir : Direction) (index : Nat) (a : Actions) (s : State) : State :=
  let s1 := if a.latch then latchAction i s else s
  let s2 := if a.report then reportAction i dir index s1 else s1
  let s3 :=
    match a.output with
    | none => s2
    | some (line, kind) => outputAction i line kind s2
  if a.pace then handMarks i s3 else s3

/-- A change of count that is not a step: the AT_LEAST and AT_MOST waits see it (R31). -/
def changeCount (i : SessionId) (value : Nat) (s : State) : State :=
  meetWaits i (WaitCond.metByChange value) (s.updSession i (fun e => { e with count := value }))

/-- Steps 5 and 6 of R30: ZERO, then HOLD (R67, R68). -/
def lateActions (i : SessionId) (a : Actions) (s : State) : State :=
  let s1 := if a.zero then changeCount i 0 s else s
  if a.hold then s1.updSession i Session.joinHost else s1

/-- The step has brought an INTERVAL count with OWN source to the window length (R54). -/
def Session.reachedWindowEnd (e : Session) (count : Nat) : Bool :=
  decide (e.mode = some .interval) && decide (e.windowSource = some .own) && decide (e.windowLength = some count)

/-- The window end that the step causes follows step 6 (R30). It is noted here and taken by INTERVAL_WINDOW_END, or
before the next event that reaches a session (log 11). -/
def noteWindowEnd (i : SessionId) (count : Nat) (s : State) : State :=
  if (s.session i).reachedWindowEnd count then s.updSession i (fun e => { e with windowEndDue := true }) else s

/-- A step of a session, with all its effects in the order of R30. -/
def stepSession (i : SessionId) (dir : Direction) (s : State) : State :=
  let s2 := s.updSession i (·.steppedAndCommitted dir)
  let count := (s2.session i).count
  match findHit count dir 0 (s2.session i).active with
  | none => noteWindowEnd i count (meetWaits i (WaitCond.metByStep count dir) s2)
  | some (index, point) =>
    let s3 := hitActions i dir index point.actions s2
    let s4 := meetWaits i (WaitCond.metByStep count dir) s3
    noteWindowEnd i count (lateActions i point.actions s4)

/-- A session that counts makes the step; one that does not makes none (R2). -/
def stepIfCounting (i : SessionId) (dir : Direction) (s : State) : State :=
  if (s.session i).counts then stepSession i dir s else s

/-! ### Quadrature -/

/-- An illegal step under FAULT policy (R13): FAULTED with its cause, the NOTICE, then the waits. The point index 0 and
the clear flags of the NOTICE are the model's (log 30). -/
def faultSession (i : SessionId) (s : State) : State :=
  let s1 := s.updSession i (fun e => { e with state := .faulted, faultCause := some .illegalStep })
  completeWaits i WaitCond.endedFault (postRecord i .notice .illegalStep 0 (s1.session i).count {} s1)

/-- An illegal step seen by a counting session (R26); the pair reference has taken the new levels. -/
def illegalStep (i : SessionId) (s : State) : State :=
  let s1 := s.updSession i (fun e => { e with illegal := satInc e.illegal })
  if (s1.session i).policy = some .fault then faultSession i s1 else s1

/-- The qualified levels of line A and line B, absent when the session lacks one. -/
def pairLevels (e : Session) (s : State) : Option (Bool × Bool) :=
  match e.lineA, e.lineB with
  | some a, some b => some (s.level a, s.level b)
  | _, _ => none

/-- A pair sample of a QUAD session (R24 to R26): a counting session compares the new levels with its reference; in
every case the reference takes the new levels. -/
def pairSample (i : SessionId) (s : State) : State :=
  let e := s.session i
  let s1 := s.updSession i (fun x => { x with pairRef := pairLevels e s })
  if e.counts then
    match e.pairRef, pairLevels e s with
    | some (a0, b0), some (a, b) =>
      if a0 ≠ a ∧ b0 ≠ b then illegalStep i s1
      else if a0 = a ∧ b0 = b then s1
      else
        let aChanged := decide (a0 ≠ a)
        if e.resolution.any (·.takes aChanged b) then stepSession i (transitionDirection aChanged a b) s1 else s1
    | _, _ => s1
  else s1

end Sys2Proof.Machine
end

