-- ==== Sys2Proof/Machine/Windows.lean ====
section
/-!
DEFINITION. Window ends (R45), pace marks (R90), the release of a follower (R92), ticks (R43) and the qualified edges
that reach a session (R21 to R27, R50, R52, R86), with the windows that a step has ended and that are still to be
taken (log 11).
-/

namespace Sys2Proof.Machine

/-! ### The window end -/

/-- Step 1 of R45: the SAMPLE (R46). -/
def postSample (i : SessionId) (s : State) : State :=
  let e := s.session i
  if e.postsSample then
    postRecord i .sample .success 0 e.sampleValue { isPartial := e.partialFlag, wrapped := e.wrappedFlag } s
  else s

/-- Steps 2 to 4 of R45: in RATE and INTERVAL the count is 0 and the next window begins; in SPAN the count stays and no
span is in progress; then a list staged with AT_WINDOW commits (R78). -/
def Session.windowEnded (e : Session) : Session :=
  let e1 := if e.mode = some .span then e.clearWindow else { e.beginWindow with count := 0 }
  Session.commitAt .atWindow { e1 with windowEndDue := false }

/-- A window end of a session, with all its effects in the order of R45. -/
def windowEnd (i : SessionId) (s : State) : State :=
  let s1 := (postSample i s).updSession i Session.windowEnded
  let s2 := handMarks i s1
  lowerWindows (s2.session i).waits s2

/-- The INTERVAL window ends that steps have caused are taken, in session order, over a list of sessions. -/
def settleList : List SessionId → State → State
  | [], s => s
  | i :: rest, s => settleList rest (if (s.session i).windowEndDue then windowEnd i s else s)

/-- Every window end that a step has caused is taken before the next event reaches a session (R30, R54; log 11). -/
def settle (s : State) : State := settleList allSessions s

/-! ### Pace marks -/

/-- What a mark does to a follower that takes it (R90): an ACTIVE one ends its window, or loses PACER and begins its
first window; any other ignores it. -/
def actOnMark (f : SessionId) (s : State) : State :=
  let e := s.session f
  if e.state = .active then
    if e.windowOpen then windowEnd f s
    else s.updSession f (fun x => { x with hold := { x.hold with pacer := false } }.beginWindow)
  else s

/-- A follower takes the oldest mark its pacer has handed to it, if its turn has come (R58, R89, R90). -/
def takeMark (f : SessionId) (s : State) : State :=
  match (s.session f).pacer with
  | none => s
  | some p =>
    match marksAfter f (s.session p).marksOut with
    | none => s
    | some out => actOnMark f (s.updSession p (fun e => { e with marksOut := out }))

/-- The followers of a list each take a mark, in its order. -/
def takeMarks : List SessionId → State → State
  | [], s => s
  | f :: rest, s => takeMarks rest (takeMark f s)

/-- Every mark a pacer has handed out is taken, oldest event first and each in list order: a mark reaches its follower
before a later event of the pacer releases it (R89). -/
def flushMarks (p : SessionId) (s : State) : State := takeMarks (s.session p).marksOut.flatten s

/-- The follower after steps 1 to 3 of its release (R92): IDLE if it was ACTIVE, its window discarded, no PACER, no
pacer. -/
def Session.releasedFromPacer (e : Session) : Session :=
  { (if e.state = .active then { e.clearWindow with state := .idle } else e) with
    hold := { e.hold with pacer := false }, pacer := none }

/-- The release of a follower from its closed pacer (R92). -/
def releaseFollower (pacer f : SessionId) (s : State) : State :=
  let s1 := s.updSession f Session.releasedFromPacer
  let s2 := s1.updSession pacer (fun e => { e with followers := e.followers.erase f })
  let s3 := completeWaits f (WaitCond.endedIdle .pacerLost) s2
  postRecord f .notice .pacerLost 0 pacer.val {} s3

/-! ### Ticks -/

/-- The window timer of a RATE session with OWN source has run its length: window elapsed equals the window length
(R43, R48). -/
def Session.timerExpired (e : Session) : Bool :=
  decide (e.state = .active) && decide (e.mode = some .rate) && decide (e.windowSource = some .own) && e.windowOpen &&
    decide (e.windowLength = some e.elapsed)

/-- A tick at a RATE session with OWN source: window elapsed advances while a window is in progress (R43). A window
whose timer has run out ends first (log 12). -/
def rateTick (i : SessionId) (s : State) : State :=
  let s1 := if (s.session i).timerExpired then windowEnd i s else s
  if (s1.session i).windowOpen then s1.updSession i (fun e => { e with elapsed := e.elapsed + 1 }) else s1

/-- A tick of a rate at a session (R43): only an ACTIVE session of a timed mode that selects it takes it. -/
def tickSession (rate : TickRate) (i : SessionId) (s : State) : State :=
  let e := s.session i
  if e.state = .active ∧ e.tick = some rate then
    match e.mode, e.windowSource with
    | some .rate, some .own => rateTick i s
    | some .span, _ => if e.windowOpen then stepIfCounting i .up s else s
    | some .interval, _ => stepIfCounting i .up s
    | _, _ => s
  else s

/-- The window end that is due at a session is taken: that of a window timer that has run out (R48), or that of an
INTERVAL step (R54). -/
def takeWindowEnd (i : SessionId) (s : State) : State :=
  if (s.session i).timerExpired || (s.session i).windowEndDue then windowEnd i s else s

/-- One turn of the instant of a tick. -/
def takeTurn (rate : TickRate) (t : TickTurn) (s : State) : State :=
  match t.2 with
  | .tick => tickSession rate t.1 s
  | .windowEnd => takeWindowEnd t.1 s
  | .mark => takeMark t.1 s

/-- The turns of a list, in its order. -/
def tickList (rate : TickRate) : List TickTurn → State → State
  | [], s => s
  | t :: rest, s => tickList rate rest (takeTurn rate t s)

/-- The tick of every session, in session order. -/
def allTicks : List TickTurn := allSessions.map (fun i => (i, .tick))

/-- An order in which each member of `all` stands once: those that `order` names come first, in its order, with the
other events that it names where it names them (log 1). -/
def planned {α : Type} [DecidableEq α] (isMember : α → Bool) (order all : List α) : List α :=
  if (order.filter isMember).Nodup then
    order.filter (fun x => !isMember x || decide (x ∈ all)) ++ all.filter (· ∉ order)
  else all

/-! ### Qualified edges at a session -/

/-- The gate of a SPAN session: a rise opens a span with count 0 when none is in progress (R50), a fall ends the span
in progress (R52). -/
def gateEdge (i : SessionId) (rising : Bool) (s : State) : State :=
  let e := s.session i
  if e.state = .active then
    if rising then
      if e.windowOpen then s else s.updSession i (fun x => { x.beginWindow with count := 0 })
    else if e.windowOpen then windowEnd i s else s
  else s

/-- An edge of line A, or a change of the pair of a QUAD session (R21). -/
def phaseEdge (i : SessionId) (s : State) : State :=
  let e := s.session i
  match e.mode, e.lineA with
  | some .quad, _ => pairSample i s
  | some .tally, some a | some .rate, some a =>
    if e.edgeSelect.any (·.qualifies (s.level a)) then stepIfCounting i .up s else s
  | some .split, some a => if s.level a then stepIfCounting i .up s else s
  | some .span, some a => gateEdge i (s.level a) s
  | _, _ => s

/-- An edge of line B of a SPLIT session (R27). -/
def lineBEdge (i : SessionId) (s : State) : State :=
  match (s.session i).lineB with
  | some b => if s.level b then stepIfCounting i .down s else s
  | none => s

/-- An edge of the inhibit line (R86). -/
def inhibitEdge (i : SessionId) (s : State) : State :=
  match (s.session i).inhibitLine with
  | some l =>
    if s.level l then s.updSession i Session.joinInhibit
    else s.updSession i (fun e => { e with hold := { e.hold with inhibit := false } })
  | none => s

/-- The session names one of the changed lines in the role (R21, R115). -/
def Session.hears (e : Session) (changed : BitVec 16) (role : EdgeRole) : Bool :=
  let isIn := fun l : Option LineId => l.any (fun x => changed.getLsbD x.val)
  decide (e.state ≠ .free) &&
    match role with
    | .phase => isIn e.lineA || (decide (e.mode = some .quad) && isIn e.lineB)
    | .lineB => decide (e.mode = some .split) && isIn e.lineB
    | .inhibit => isIn e.inhibitLine
    | .mark => false

/-- One delivery of an instant's edges, or a mark taken among them. -/
def deliver (d : Delivery) (s : State) : State :=
  match d.2 with
  | .phase => phaseEdge d.1 s
  | .lineB => lineBEdge d.1 s
  | .inhibit => inhibitEdge d.1 s
  | .mark => takeMark d.1 s

/-- The deliveries of a list, in its order. -/
def deliverList : List Delivery → State → State
  | [], s => s
  | d :: rest, s => deliverList rest (deliver d s)

/-- Every delivery an instant's edges cause, in session order (R115). -/
def heardBy (changed : BitVec 16) (s : State) : List Delivery :=
  allSessions.flatMap fun i =>
    ([EdgeRole.phase, .lineB, .inhibit].filter ((s.session i).hears changed)).map fun role => (i, role)

/-- The qualified edges of the changed lines are handed to the sessions that name them, in the order given where the
rules set none (R22, R115; log 1). -/
def handEdges (changed : BitVec 16) (order : List Delivery) (s : State) : State :=
  deliverList (planned Delivery.isEdge order (heardBy changed s)) s

end Sys2Proof.Machine
end

