-- ==== Sys2Proof/Machine/JobUnit.lean ====
section
/-!
DEFINITION. The Job Unit (R125 to R139): eligibility and the arbiter, the beginning of a take, the end of its record
fetch, and the common validation. The meanings of the job rows stand in the files of their families.
-/

namespace Sys2Proof.Machine

/-! ### Eligibility and the arbiter -/

/-- The number of pending records of a ring (R126). -/
def JobRing.pendingCount (j : JobRing) : Nat := (j.post + j.size - j.take) % j.size

/-- The reservation test of a report ring (R128, R148). -/
def ReportRing.hasPlace (r : ReportRing) : Bool := decide (r.state = .opened) && decide (1 ≤ r.freeSpace)

/-- The six conditions of eligibility (R128). -/
def State.eligible (s : State) (r : JobRingId) : Bool :=
  s.run && !s.isFatal && decide ((s.jobRing r).state = .running) && decide (0 < (s.jobRing r).pendingCount) &&
    !(s.jobRing r).fetchInFlight && (s.reportRing (s.jobRing r).bound).hasPlace

/-- JR1 to JR7 in the order of the search: from the ring after the holder of the turn on to the holder itself (R129). -/
def rotation (turn : JobRingId) : List JobRingId :=
  (List.range 7).map fun k => ⟨(turn.val + k) % 7 + 1, by omega⟩

/-- What a choice gives: the ring, and the turn and remaining weight after it. -/
structure Choice where
  ring : JobRingId
  turn : JobRingId
  turnLeft : Nat
  deriving DecidableEq, Repr

/-- The arbiter's choice (R129); none when no ring is eligible. -/
def State.choose (s : State) : Option Choice :=
  if s.eligible 0 then some { ring := 0, turn := s.turn, turnLeft := if s.eligible s.turn then s.turnLeft else 0 }
  else if s.turn ≠ 0 ∧ s.eligible s.turn = true ∧ 1 ≤ s.turnLeft then
    some { ring := s.turn, turn := s.turn, turnLeft := s.turnLeft - 1 }
  else
    match (rotation s.turn).find? s.eligible with
    | none => none
    | some r => some { ring := r, turn := r, turnLeft := (s.jobRing r).weight - 1 }

/-- The address of the record at the take index (R130). -/
def JobRing.recordAddress (j : JobRing) : Nat := j.base + 32 * j.take

/-- The beginning of a take: the turn moves, one place is reserved on the bound report ring, and the read of the record
at the take index is under way (R130, R148). -/
def beginTake (c : Choice) (s : State) : State :=
  { s.updReportRing (s.jobRing c.ring).bound (fun r => { r with reservations := r.reservations + 1 }) with
    turn := c.turn, turnLeft := c.turnLeft,
    taking := some { ring := c.ring, stage := .reading (s.jobRing c.ring).recordAddress } }

/-- The taker begins a take if none is in progress and a ring is eligible (R129, R130). -/
def takerChoice (s : State) : State :=
  match s.taking with
  | some _ => s
  | none =>
    match s.choose with
    | none => s
    | some c => beginTake c s

/-! ### The end of the record fetch -/

/-- The take index advances by 1 modulo the size (R126, R130). -/
def JobRing.advance (j : JobRing) : JobRing := { j with take := (j.take + 1) % j.size }

/-- The fetched record of a ring has arrived: window ends that steps have caused are taken, the take index advances,
and no take is in progress any more unless the job itself keeps it so (R130, R156; log 11). -/
def recordArrives (ring : JobRingId) (s : State) : State :=
  { (settle s).updJobRing ring JobRing.advance with taking := none }

/-- The rest of a take after its record has arrived. A record that arrives while no read is in flight is not used
(R130, log 2). -/
def withTaken (job : JobRingId → State → State) (s : State) : State :=
  match s.taking with
  | none => s
  | some t =>
    match t.stage with
    | .reading _ => job t.ring (recordArrives t.ring s)
    | .dropping _ _ => s

/-- The common validation of a work job other than OPEN: ring class, session number, session state, owner (R134). -/
def workTarget (ring : JobRingId) (w : JobRecord) (s : State) : Except Status SessionId :=
  if ring = 0 then .error .wrongRing
  else
    match sessionOf w.session with
    | none => .error .badSession
    | some k =>
      if (s.session k).state = .free then .error .wrongState
      else if (s.session k).owner = some ring then .ok k
      else .error .notOwner

/-- A work job other than OPEN: the common validation, then its own part. -/
def workJob (body : JobRingId → SessionId → JobRecord → State → State) (w : JobRecord) (ring : JobRingId)
    (s : State) : State :=
  match workTarget ring w s with
  | .error status => reply ring w status 0 s
  | .ok k => body ring k w s

/-- A control job: taken from JR0, else WRONG_RING (R134). -/
def controlJob (body : JobRecord → State → State) (w : JobRecord) (ring : JobRingId) (s : State) : State :=
  if ring = 0 then body w s else replyControl ring w .wrongRing 0 s

/-- A record whose kind code is in no table (R134, R175; log 14). -/
def badKindJob (w : JobRecord) (ring : JobRingId) (s : State) : State := reply ring w .badKind 0 s

/-! ### Fetch errors (R132) -/

/-- A bus error on the read of a job record: the take index stays, the reservation returns, the ring is BROKEN, and a
NOTICE goes to RR0. -/
def recordFetchFailed (ring : JobRingId) (s : State) : State :=
  let s1 := returnReservation (s.jobRing ring).bound { s with taking := none }
  let s2 := s1.updJobRing ring (fun j => { j with state := .broken })
  postRingNotice .jrBroken (jrBrokenValue ring (s.jobRing ring).take) s2

/-- RECORD_FETCH_ERROR. Without a read in flight there is nothing to fail. -/
def execRecordFetchError (s : State) : Host.Outcome State Fault Refusal :=
  .next
    (match s.taking with
    | none => s
    | some t =>
      match t.stage with
      | .reading _ => recordFetchFailed t.ring s
      | .dropping _ _ => s)

end Sys2Proof.Machine
end

