-- ==== Sys2Proof/Machine/Counting.lean ====
section
/-!
DEFINITION. PRESET (R32) and READ (R34 to R38).
-/

namespace Sys2Proof.Machine

/-! ### PRESET -/

/-- The value passes: not above the limit, and below the window length of an INTERVAL session with OWN source (R32). -/
def Session.presetOk (e : Session) (value : Nat) : Bool :=
  decide (value ≤ e.limitValue) &&
    !(decide (e.mode = some .interval) && decide (e.windowSource = some .own) &&
      e.windowLength.any (fun len => decide (len ≤ value)))

/-- PRESET after the common validation and the state check (R32). -/
def presetBody (ring : JobRingId) (k : SessionId) (w : JobRecord) (s : State) : State :=
  let value := (w.word 8).toNat
  if (s.session k).presetOk value then reply ring w .success value (changeCount k value s)
  else reply ring w .badParam 0 s

/-- PRESET. -/
def execPreset (w : JobRecord) (s : State) : Host.Outcome State Fault Refusal :=
  .next (withTaken (workJob presetBody w) s)

/-! ### READ -/

/-- The answer of a READ that passes: value, flags and stamp by item (R35 to R38). -/
def readAnswer (item : ReadItem) (w : JobRecord) (e : Session) (stamp : Word32) : Answer :=
  match item with
  | .count => { status := .success, session := w.session, value := toWord e.count, stamp }
  | .capture =>
    if e.capture.valid then
      { status := .success, session := w.session, value := toWord e.capture.value, stamp := e.capture.stamp }
    else { status := .success, session := w.session, flags := { captureEmpty := true }, stamp }
  | .state => { status := .success, session := w.session, value := e.stateValue, stamp }
  | .wraps => { status := .success, session := w.session, value := toWord e.wraps, stamp }
  | .illegal => { status := .success, session := w.session, value := toWord e.illegal, stamp }
  | .lists => { status := .success, session := w.session, value := e.listsValue, stamp }

/-- What a READ changes: CAPTURE consumes the capture; READ_CLEAR clears the counter read (R34 to R36). -/
def Session.afterRead (e : Session) (item : ReadItem) (clear : Bool) : Session :=
  match item with
  | .capture => { e with capture := { e.capture with valid := false } }
  | .wraps => if clear then { e with wraps := 0 } else e
  | .illegal => if clear then { e with illegal := 0 } else e
  | .count | .state | .lists => e

/-- READ after the common validation and the state check (R34). -/
def readBody (ring : JobRingId) (k : SessionId) (w : JobRecord) (s : State) : State :=
  match readItemOf (w.byte 8) with
  | none => reply ring w .badParam 0 s
  | some item =>
    answerNow ring w (readAnswer item w (s.session k) s.stamp)
      (s.updSession k (fun e => e.afterRead item (w.flag 0)))

/-- READ. -/
def execRead (w : JobRecord) (s : State) : Host.Outcome State Fault Refusal :=
  .next (withTaken (workJob readBody w) s)

end Sys2Proof.Machine
end

