-- ==== Sys2Proof/Machine/Holds.lean ====
section
/-!
DEFINITION. HOLD (R83) and RELEASE (R84).
-/

namespace Sys2Proof.Machine

/-- HOLD after the common validation and the state check (R83). -/
def holdBody (ring : JobRingId) (k : SessionId) (w : JobRecord) (s : State) : State :=
  reply ring w .success (s.session k).count (s.updSession k Session.joinHost)

/-- HOLD. -/
def execHold (w : JobRecord) (s : State) : Host.Outcome State Fault Refusal :=
  .next (withTaken (workJob holdBody w) s)

/-- HOST leaves the hold set (R84). -/
def Session.leaveHost (e : Session) : Session := { e with hold := { e.hold with host := false } }

/-- RELEASE after the common validation and the state check (R84). -/
def releaseBody (ring : JobRingId) (k : SessionId) (w : JobRecord) (s : State) : State :=
  reply ring w .success (s.session k).count (s.updSession k Session.leaveHost)

/-- RELEASE. -/
def execRelease (w : JobRecord) (s : State) : Host.Outcome State Fault Refusal :=
  .next (withTaken (workJob releaseBody w) s)

end Sys2Proof.Machine
end

