-- ==== Sys2Proof/Machine/Points.lean ====
section
/-!
DEFINITION. LOAD_POINTS (R69, R70, R74), COMMIT_POINTS (R79), and the two ends of a point fetch (R72, R73, R18).
-/

namespace Sys2Proof.Machine

/-- Staging (R74, steps 1 to 3): the new list replaces any staged list, and with mode NOW it is committed at once. -/
def Session.stage (e : Session) (points : List Point) (mode : CommitMode) : Session :=
  let e1 := { e with staged := some { points, mode } }
  if mode = .now then e1.commit else e1

/-- The answer of a load that succeeds (R74, step 4). -/
def stagedAnswer (k : SessionId) (e : Session) (n : Nat) (stamp : Word32) : Answer :=
  { status := .success, session := toByte k.val, value := toWord n, flags := { replaced := e.staged.isSome }, stamp }

/-- The fetch of an array begins: its record, and the stall of its ring (R70, R138). -/
def beginFetch (ring : JobRingId) (k : SessionId) (w : JobRecord) (n : Nat) (mode : CommitMode) (s : State) : State :=
  { s.updJobRing ring (fun j => { j with fetchInFlight := true }) with
    fetches := s.fetches ++
      [{ ring, tag := w.tag, session := k, points := n, address := (w.quad 16).toNat, mode
         reportRing := (s.jobRing ring).bound }] }

/-- LOAD_POINTS after the common validation and the state check (R69, R70). -/
def loadPointsBody (ring : JobRingId) (k : SessionId) (w : JobRecord) (s : State) : State :=
  let e := s.session k
  match loadRefusal w (e.mode.any (·.isTimed)), commitModeOf (w.byte 9) with
  | some (status, value), _ => reply ring w status value s
  | none, none => reply ring w .badParam 0 s
  | none, some mode =>
    let n := (w.byte 8).toNat
    if n = 0 then answerNow ring w (stagedAnswer k e 0 s.stamp) (s.updSession k (·.stage [] mode))
    else beginFetch ring k w n mode s

/-- LOAD_POINTS. -/
def execLoadPoints (w : JobRecord) (s : State) : Host.Outcome State Fault Refusal :=
  .next (withTaken (workJob loadPointsBody w) s)

/-- COMMIT_POINTS after the common validation and the state check (R79). -/
def commitPointsBody (ring : JobRingId) (k : SessionId) (w : JobRecord) (s : State) : State :=
  match (s.session k).staged with
  | none => reply ring w .noStaged 0 s
  | some st => reply ring w .success st.points.length (s.updSession k Session.commit)

/-- COMMIT_POINTS. -/
def execCommitPoints (w : JobRecord) (s : State) : Host.Outcome State Fault Refusal :=
  .next (withTaken (workJob commitPointsBody w) s)

/-! ### The end of a fetch -/

/-- The fetch leaves the list; the stall of its ring ends, unless the fetch belongs to no ring (R70, R138). -/
def endFetch (n : Nat) (f : PointFetch) (s : State) : State :=
  let s1 := { s with fetches := s.fetches.eraseIdx n }
  if f.orphan then s1 else s1.updJobRing f.ring (fun j => { j with fetchInFlight := false })

/-- The answer of a fetch that ends in a refusal (R18, R72, R73). -/
def fetchRefused (f : PointFetch) (status : Status) (value : Nat) (s : State) : State :=
  answer f.ring f.reportRing f.tag
    { status, session := toByte f.session.val, value := toWord value, stamp := s.stamp } s

/-- The whole array of a fetch has arrived (R73, R74); void: WRONG_STATE (R18); its ring dropped: no record. -/
def fetchDone (f : PointFetch) (entries : List PointEntry) (s : State) : State :=
  if f.orphan then s
  else if f.isVoid then fetchRefused f .wrongState 0 s
  else
    let e := s.session f.session
    match checkPoints e.limitValue e.claims 0 none entries with
    | .error index => fetchRefused f .pointInvalid index s
    | .ok points =>
      answer f.ring f.reportRing f.tag (stagedAnswer f.session e points.length s.stamp)
        (s.updSession f.session (·.stage points f.mode))

/-- A read of the fetch returned a bus error (R72); void: WRONG_STATE (R18); its ring dropped: no record. -/
def fetchFailed (f : PointFetch) (entry : Nat) (s : State) : State :=
  if f.orphan then s
  else if f.isVoid then fetchRefused f .wrongState 0 s
  else fetchRefused f .fetchError entry s

/-- POINT_FETCH_DONE. Without such a fetch, or with another number of entries than it reads, this is not the end of a
fetch (log 24). -/
def execPointFetchDone (n : Nat) (entries : List PointEntry) (s : State) : Host.Outcome State Fault Refusal :=
  .next
    (match s.fetches[n]? with
    | none => s
    | some f =>
      if entries.length = f.points then endFetch n f (fetchDone f entries (settle s)) else s)

/-- POINT_FETCH_ERROR. Without such a fetch, or for an entry it does not read, there is no read to fail (log 24). -/
def execPointFetchError (n entry : Nat) (s : State) : Host.Outcome State Fault Refusal :=
  .next
    (match s.fetches[n]? with
    | none => s
    | some f => if f.points ≤ entry then s else endFetch n f (fetchFailed f entry (settle s)))

end Sys2Proof.Machine
end

