-- ==== Sys2Proof/Machine/Lines.lean ====
section
/-!
DEFINITION. The Line Qualifier (R113 to R117) with LINE_SETUP, QUALIFIED_EDGE and RAW_PIN_SAMPLE, and the Match Output
(R118 to R123) with OUTPUTS and PULSE_EXPIRY.
-/

namespace Sys2Proof.Machine

/-! ### LINE_SETUP -/

/-- The session is ACTIVE and names the line in some role (R116). -/
def Session.usesLine (e : Session) (l : LineId) : Bool :=
  decide (e.state = .active) &&
    (decide (e.lineA = some l) || decide (e.lineB = some l) || decide (e.inhibitLine = some l))

/-- The set of one line. -/
def lineSet (l : LineId) : BitVec 16 := 1#16 <<< l.val

/-- The steps of a LINE_SETUP that passes: width, then polarity, whose change is a qualified edge (R116). -/
def setUpLine (l : LineId) (inverted : Bool) (width : Nat) (s : State) : State :=
  let s1 := s.setLine l { s.line l with inverted, width }
  if (s.line l).inverted = inverted then s1 else handEdges (lineSet l) [] s1

/-- LINE_SETUP after the common validation (R116). -/
def lineSetupBody (w : JobRecord) (s : State) : State :=
  match lineOf (w.byte 8), polarityOf (w.byte 9) with
  | some l, some inverted =>
    if (w.byte 10).toNat < 2 then replyControl 0 w .badParam 0 s
    else
      match allSessions.find? (fun k => (s.session k).usesLine l) with
      | some k => replyControl 0 w .lineBusy k.val s
      | none => replyControl 0 w .success l.val (setUpLine l inverted (w.byte 10).toNat s)
  | _, _ => replyControl 0 w .badParam 0 s

/-- LINE_SETUP. -/
def execLineSetup (w : JobRecord) (s : State) : Host.Outcome State Fault Refusal :=
  .next (withTaken (controlJob lineSetupBody w) s)

/-! ### Edges and samples -/

/-- The filter accepts the other raw level (R114). -/
def InputLine.accept (l : InputLine) : InputLine := { l with accepted := !l.accepted, runCount := 0 }

/-- The lines of a set accept at one instant. -/
def acceptLines (lines : BitVec 16) : List LineId → State → State
  | [], s => s
  | l :: rest, s => acceptLines lines rest (if lines.getLsbD l.val then s.setLine l (s.line l).accept else s)

/-- An instant at which the filters of the lines accept: the levels settle, then the edges are handed on (R22, R114,
R115). -/
def qualifiedEdges (lines : BitVec 16) (order : List Delivery) (s : State) : State :=
  handEdges lines order (acceptLines lines allLines s)

/-- One more differing sample completes the filter's run (R114). -/
def InputLine.nearlyComplete (l : InputLine) : Bool := decide (l.width ≤ l.runCount + 1)

/-- The lines of a set whose filters accept at their next differing sample, judged against their widths (R114, R117). -/
def readyLines (lines : BitVec 16) (s : State) : BitVec 16 :=
  allLines.foldl
    (fun acc l => if lines.getLsbD l.val && (s.line l).nearlyComplete then acc ||| lineSet l else acc) 0

/-- QUALIFIED_EDGE: the lines named accept whose filters complete their runs; with none the event does not occur. While
RESET_N is low the filters take no samples (R124). -/
def execQualifiedEdge (lines : BitVec 16) (order : List Delivery) (s : State) : Host.Outcome State Fault Refusal :=
  .next
    (if s.phase = .hardwareReset ∨ readyLines lines s = 0 then s
    else qualifiedEdges (readyLines lines s) order (settle s))

/-- A sample differs from the accepted level and completes the run: the filter accepts it (R114). -/
def InputLine.completes (l : InputLine) (sample : Bool) : Bool :=
  decide (sample ≠ l.accepted) && l.nearlyComplete

/-- The run count after a sample that is not accepted (R114). -/
def InputLine.sampled (l : InputLine) (sample : Bool) : InputLine :=
  if sample = l.accepted then { l with runCount := 0 }
  else if l.nearlyComplete then l
  else { l with runCount := l.runCount + 1 }

/-- The lines whose filters accept the samples. -/
def completedLines (levels : BitVec 16) (s : State) : BitVec 16 :=
  allLines.foldl (fun acc l => if (s.line l).completes (levels.getLsbD l.val) then acc ||| lineSet l else acc) 0

/-- The run counts of all sixteen lines after the samples. -/
def sampleLines (levels : BitVec 16) : List LineId → State → State
  | [], s => s
  | l :: rest, s => sampleLines levels rest (s.setLine l ((s.line l).sampled (levels.getLsbD l.val)))

/-- A timer with one reference period less to go. -/
def timerPassed (t : Option Nat) : Option Nat := t.map (· - 1)

/-- One reference period of the Timebase: the dividers and every pulse, timeout and batch timer (R39, R41, R158), and
the driven levels as the events of the period have left them on the pins (R118). -/
def periodPasses (s : State) : State :=
  { s with
    pins := s.drivenLevels
    refPhase := (s.refPhase + 1) % Config.dividerCycle
    outputs := s.outputs.map (fun o => { o with timer := timerPassed o.timer })
    waits := s.waits.map (fun w => w.map (fun e => { e with timer := timerPassed e.timer }))
    reportRings := s.reportRings.map (fun r => { r with batchTimer := timerPassed r.batchTimer }) }

/-- One sample of every line (R114), and the edges of the lines that accept it. -/
def samplePins (levels : BitVec 16) (order : List Delivery) (s : State) : State :=
  let done := completedLines levels s
  let s1 := sampleLines levels allLines s
  if done = 0 then s1 else qualifiedEdges done order (settle s1)

/-- RAW_PIN_SAMPLE. While RESET_N is low the filters take no samples (R124). The edges that this period accepts come before
the expiry of a timer that runs out in it, where R110 and R122 allow either order: the model's choice (log 33). -/
def execRawPinSample (levels : BitVec 16) (order : List Delivery) (s : State) : Host.Outcome State Fault Refusal :=
  .next (if s.phase = .hardwareReset then s else samplePins levels order (periodPasses s))

/-! ### Output lines -/

/-- The claimed lines at logical high, bit n for OUTn (R123). -/
def State.highClaims (s : State) (claims : BitVec 8) : BitVec 8 :=
  allOutputs.foldl
    (fun acc l => if claims.getLsbD l.val && (s.output l).level then acc ||| (1#8 <<< l.val) else acc) 0

/-- OUTPUTS after the common validation and the state check (R123, R178). -/
def outputsBody (ring : JobRingId) (k : SessionId) (w : JobRecord) (s : State) : State :=
  match settingOf (w.byte 8) with
  | none => reply ring w .badParam 0 s
  | some on =>
    let claims := (s.session k).claims
    reply ring w .success (claims.toNat + (s.highClaims claims).toNat * 2 ^ 8)
      (s.updSession k (fun e => { e with outputsEnabled := on }))

/-- OUTPUTS. -/
def execOutputs (w : JobRecord) (s : State) : Host.Outcome State Fault Refusal :=
  .next (withTaken (workJob outputsBody w) s)

/-- PULSE_EXPIRY (R121): the level goes low and the timer is stopped. A timer that is stopped or has time to go, as after
a restart by PULSE, has no expiry (R41, R122). -/
def execPulseExpiry (l : OutputId) (s : State) : Host.Outcome State Fault Refusal :=
  .next
    (if (s.output l).timer = some 0 then s.setOutput l { s.output l with level := false, timer := none } else s)

end Sys2Proof.Machine
end

