-- ==== Sys2Proof/Machine/JobRings.lean ====
section
/-!
DEFINITION. MAKE_JOB_RING (R140), DROP_JOB_RING (R141) and RESTART_JOB_RING (R142).
-/

namespace Sys2Proof.Machine

/-- A ring id of 1 to 7. -/
def workJobRingOf (b : Byte) : Option JobRingId :=
  match jobRingOf b with
  | none => none
  | some r => if r = 0 then none else some r

/-- A work report ring, RR1 to RR7. -/
def workReportRingOf (b : Byte) : Option ReportRingId :=
  match reportRingOf b with
  | none => none
  | some r => if r = 0 then none else some r

/-! ### MAKE_JOB_RING -/

/-- The parameters of MAKE_JOB_RING in range, with the bound report ring (R140, check 3). -/
def makeJobRingBound (w : JobRecord) : Option ReportRingId :=
  if ringGeometryOk 32 (w.half 12).toNat (w.quad 16).toNat && decide (1 ≤ (w.byte 10).toNat) &&
      decide ((w.byte 10).toNat ≤ 8) then
    workReportRingOf (w.byte 9)
  else none

/-- The ring as MAKE_JOB_RING makes it (R140). -/
def madeJobRing (w : JobRecord) (bound : ReportRingId) : JobRing :=
  { state := .running, base := (w.quad 16).toNat, size := (w.half 12).toNat, post := 0, take := 0, bound,
    haltFlag := w.flag 0, weight := (w.byte 10).toNat, fetchInFlight := false }

/-- MAKE_JOB_RING after the common validation (R140). -/
def makeJobRingBody (w : JobRecord) (s : State) : State :=
  match workJobRingOf (w.byte 8) with
  | none => replyControl 0 w .badParam 0 s
  | some r =>
    if (s.jobRing r).state ≠ .absent then replyControl 0 w .ringExists 0 s
    else
      match makeJobRingBound w with
      | none => replyControl 0 w .badParam 0 s
      | some bound =>
        if (s.reportRing bound).state ≠ .opened then replyControl 0 w .noRing 0 s
        else replyControl 0 w .success r.val (s.setJobRing r (madeJobRing w bound))

/-- MAKE_JOB_RING. -/
def execMakeJobRing (w : JobRecord) (s : State) : Host.Outcome State Fault Refusal :=
  .next (withTaken (controlJob makeJobRingBody w) s)

/-! ### DROP_JOB_RING -/

/-- The number of sessions a job ring owns (R141). -/
def State.ownedCount (s : State) (r : JobRingId) : Nat :=
  allSessions.countP (fun k => decide ((s.session k).owner = some r))

/-- A ring is forgotten: its pending records are discarded and it becomes ABSENT (R141). -/
def forgetJobRing (r : JobRingId) (s : State) : State := s.setJobRing r {}

/-- DROP_JOB_RING after the common validation (R141). -/
def dropJobRingBody (w : JobRecord) (s : State) : State :=
  match workJobRingOf (w.byte 8) with
  | none => replyControl 0 w .badParam 0 s
  | some r =>
    if (s.jobRing r).state = .absent then replyControl 0 w .noRing 0 s
    else if s.ownedCount r ≠ 0 then replyControl 0 w .inUse (s.ownedCount r) s
    else if (s.jobRing r).fetchInFlight then replyControl 0 w .inUse 0 s
    else replyControl 0 w .success (s.jobRing r).pendingCount (forgetJobRing r s)

/-- DROP_JOB_RING. -/
def execDropJobRing (w : JobRecord) (s : State) : Host.Outcome State Fault Refusal :=
  .next (withTaken (controlJob dropJobRingBody w) s)

/-! ### RESTART_JOB_RING -/

/-- RESTART_JOB_RING after the common validation (R142). -/
def restartJobRingBody (w : JobRecord) (s : State) : State :=
  match jobRingOf (w.byte 8) with
  | none => replyControl 0 w .badParam 0 s
  | some r =>
    match (s.jobRing r).state with
    | .absent => replyControl 0 w .noRing 0 s
    | .broken => replyControl 0 w .wrongState 0 s
    | .running => replyControl 0 w .success (s.jobRing r).pendingCount s
    | .halted =>
      replyControl 0 w .success (s.jobRing r).pendingCount (s.updJobRing r (fun j => { j with state := .running }))

/-- RESTART_JOB_RING. -/
def execRestartJobRing (w : JobRecord) (s : State) : Host.Outcome State Fault Refusal :=
  .next (withTaken (controlJob restartJobRingBody w) s)

end Sys2Proof.Machine
end

