-- ==== Sys2Proof/Machine/Notification.lean ====
section
/-!
DEFINITION. Notification (R158 to R164): a record written, the expiry of a batch timer, a host write to INT_PENDING,
and TUNE_REPORT_RING.
-/

namespace Sys2Proof.Machine

/-- The INT_PENDING bit of a ring. -/
def ringBit (r : ReportRingId) : BitVec 8 := 1#8 <<< r.val

/-- The ring's INT_PENDING bit is set (R159, R160). -/
def raiseBit (r : ReportRingId) (s : State) : State := { s with intPending := s.intPending ||| ringBit r }

/-- The counters of a BATCH ring restarted: count 0, timer stopped (R159, R160, R163). -/
def ReportRing.restartBatch (r : ReportRing) : ReportRing := { r with unnotified := 0, batchTimer := none }

/-- Notification is told of a record written to the ring (R159). -/
def recordWritten (r : ReportRingId) (s : State) : State :=
  match (s.reportRing r).notify with
  | .off => s
  | .each => raiseBit r s
  | .batch count time =>
    let n := (s.reportRing r).unnotified + 1
    if count ≤ n then raiseBit r (s.updReportRing r ReportRing.restartBatch)
    else if n = 1 then
      s.updReportRing r (fun x => { x with unnotified := n, batchTimer := some (Config.periodsPerMicro * time) })
    else s.updReportRing r (fun x => { x with unnotified := n })

/-- BATCH_TIMER_EXPIRY (R160). A timer that is stopped or has time to go has no expiry (R158). -/
def execBatchTimerExpiry (r : ReportRingId) (s : State) : Host.Outcome State Fault Refusal :=
  .next
    (if (s.reportRing r).batchTimer = some 0 then raiseBit r (s.updReportRing r ReportRing.restartBatch) else s)

/-- A host write to INT_PENDING: each bit written 1 is cleared (R161). -/
def clearPending (word : Word32) (s : State) : State :=
  { s with intPending := s.intPending &&& ~~~(word.extractLsb' 0 8) }

/-- INT_PENDING. While READY is 0 a write is ignored (R165). -/
def execIntPending (word : Word32) (s : State) : Host.Outcome State Fault Refusal :=
  .next (if s.phase = .ready then clearPending word s else s)

/-- The settings take the job's values, the count restarts and the timer stops (R163, steps 2 and 3). -/
def ReportRing.tuned (r : ReportRing) (mode : NotifyMode) : ReportRing :=
  { r with notify := mode, unnotified := 0, batchTimer := none }

/-- TUNE_REPORT_RING after the common validation (R163). -/
def tuneReportRingBody (w : JobRecord) (s : State) : State :=
  match reportRingOf (w.byte 8) with
  | none => replyControl 0 w .badParam 0 s
  | some r =>
    if (s.reportRing r).state = .absent then replyControl 0 w .noRing 0 s
    else
      match notifyOf (w.byte 9) (w.byte 10) (w.half 14) with
      | none => replyControl 0 w .badParam 0 s
      | some mode =>
        replyControl 0 w .success (s.reportRing r).unnotified (s.updReportRing r (·.tuned mode))

/-- TUNE_REPORT_RING. -/
def execTuneReportRing (w : JobRecord) (s : State) : Host.Outcome State Fault Refusal :=
  .next (withTaken (controlJob tuneReportRingBody w) s)

end Sys2Proof.Machine
end

