-- ==== Sys2Proof/Machine/Sessions.lean ====
section
/-!
DEFINITION. OPEN (R6 to R9), START (R10), STOP (R11), CLOSE (R15 to R17) and the close without reports (R18, R19).
-/

namespace Sys2Proof.Machine

/-! ### OPEN -/

/-- The selection of the session, or the refusal (R6). -/
def openSelect (w : JobRecord) (s : State) : Except Status SessionId :=
  match sessionOf w.session with
  | some k => if (s.session k).state = .free then .ok k else .error .sessionTaken
  | none =>
    match allSessions.find? (fun k => decide ((s.session k).state = .free)) with
    | some k => .ok k
    | none => .error .noSession

/-- The checks of the report ring, the pacer and the claims, in order: the refusal with its value (R8). -/
def openRefusal (ring : JobRingId) (w : JobRecord) (setup : Session) (s : State) : Option (Status × Nat) :=
  match reportRingOf (w.byte 8) with
  | none => some (.badParam, 0)
  | some r =>
    if (s.reportRing r).state ≠ .opened then some (.noRing, 0)
    else
      let pacerRefusal : Option (Status × Nat) :=
        match setup.pacer with
        | none => none
        | some p =>
          let e := s.session p
          if e.state = .free ∨ e.pacer.isSome = true ∨ Config.maxFollowers ≤ e.followers.length then
            some (.bound, p.val)
          else if e.owner ≠ some ring then some (.notOwner, p.val)
          else none
      match pacerRefusal with
      | some x => some x
      | none =>
        match allOutputs.find? (fun l => setup.claims.getLsbD l.val && (s.output l).owner.isSome) with
        | some l => some (.outputTaken, l.val)
        | none => none

/-- The configured entry of R9: parameters and owner, every result field as in a new entry, INHIBIT from the level of
the inhibit line, the pair reference from both lines. -/
def openedSession (ring : JobRingId) (w : JobRecord) (setup : Session) (s : State) : Session :=
  { setup with
    state := .idle
    owner := some ring
    reportRing := reportRingOf (w.byte 8)
    hold := { inhibit := setup.inhibitLine.any s.level }
    pairRef := if setup.mode = some .quad then pairLevels setup s else none
    outputsEnabled := w.flag 0 }

/-- The claimed lines take their owner, logical low, the timer stopped (R9, R119). -/
def claimOutputs (k : SessionId) (claims : BitVec 8) : List OutputId → State → State
  | [], s => s
  | l :: rest, s =>
    claimOutputs k claims rest
      (if claims.getLsbD l.val then s.setOutput l { owner := some k, level := false, timer := none } else s)

/-- The session joins the tail of its pacer's follower list (R9, R88). -/
def joinPacerList (k : SessionId) (pacer : Option SessionId) (s : State) : State :=
  match pacer with
  | none => s
  | some p => s.updSession p (fun e => { e with followers := e.followers ++ [k] })

/-- The configuration of the selected session (R9). -/
def configure (ring : JobRingId) (k : SessionId) (w : JobRecord) (setup : Session) (s : State) : State :=
  claimOutputs k setup.claims allOutputs
    (joinPacerList k setup.pacer (s.setSession k (openedSession ring w setup s)))

/-- OPEN after the checks of ring class and session number (R6 to R9). -/
def openBody (ring : JobRingId) (w : JobRecord) (s : State) : State :=
  match openSelect w s with
  | .error status => reply ring w status 0 s
  | .ok k =>
    match openSetup w with
    | none => reply ring w .badParam 0 s
    | some setup =>
      match openRefusal ring w setup s with
      | some (status, value) => reply ring w status value s
      | none =>
        answerNow ring w
          { status := .success, session := toByte k.val, value := toWord k.val, stamp := s.stamp }
          (configure ring k w setup s)

/-- The common validation of OPEN: ring class, and a session number of 0 to 31 or 255 (R134). -/
def openChecked (w : JobRecord) (ring : JobRingId) (s : State) : State :=
  if ring = 0 then reply ring w .wrongRing 0 s
  else if (sessionOf w.session).isNone = true ∧ w.session ≠ 255 then reply ring w .badSession 0 s
  else openBody ring w s

/-- OPEN. -/
def execOpen (w : JobRecord) (s : State) : Host.Outcome State Fault Refusal :=
  .next (withTaken (openChecked w) s)

/-! ### START -/

/-- The entry after a START: ACTIVE, PACER for a follower, and the setup of its mode (R10, R24, R47, R50, R54, R56). -/
def Session.started (e : Session) (pair : Option (Bool × Bool)) : Session :=
  let e1 := { e with state := .active }
  let e2 := if e1.pacer.isSome then e1.joinPacer else e1
  match e2.mode, e2.windowSource with
  | some .quad, _ => { e2 with pairRef := pair }
  | some .rate, some .own => { e2.beginWindow with count := 0 }
  | some .rate, _ => { e2 with count := 0 }
  | some .interval, some .own => e2.beginWindow
  | _, _ => e2

/-- START after the common validation (R5, R10). -/
def startBody (ring : JobRingId) (k : SessionId) (w : JobRecord) (s : State) : State :=
  let e := s.session k
  if e.state ≠ .idle then reply ring w .wrongState 0 s
  else if e.windowSource = some .pacer ∧ e.pacer = none then reply ring w .badParam 0 s
  else
    let e' := e.started (pairLevels e s)
    reply ring w .success e'.count (s.setSession k e')

/-- START. -/
def execStart (w : JobRecord) (s : State) : Host.Outcome State Fault Refusal :=
  .next (withTaken (workJob startBody w) s)

/-! ### STOP -/

/-- The entry after a STOP: the window discarded, no fault cause, IDLE (R11, R12). -/
def Session.stopped (e : Session) : Session := { e.clearWindow with faultCause := none, state := .idle }

/-- STOP after the common validation (R5, R11). -/
def stopBody (ring : JobRingId) (k : SessionId) (w : JobRecord) (s : State) : State :=
  let e := s.session k
  if e.state = .idle then reply ring w .success e.count s
  else
    reply ring w .success e.count
      (completeWaits k (WaitCond.endedIdle .sessionStopped) (s.updSession k Session.stopped))

/-- STOP. -/
def execStop (w : JobRecord) (s : State) : Host.Outcome State Fault Refusal :=
  .next (withTaken (workJob stopBody w) s)

/-! ### Closing -/

/-- Every follower of the list is released from the pacer, in list order (R16, R92). -/
def releaseFollowers (pacer : SessionId) : List SessionId → State → State
  | [], s => s
  | f :: rest, s => releaseFollowers pacer rest (releaseFollower pacer f s)

/-- The session leaves its pacer's follower list, and the marks handed to it are void; the others keep their order (R16,
R91). -/
def leavePacer (k : SessionId) (s : State) : State :=
  match (s.session k).pacer with
  | none => s
  | some p =>
    (s.updSession p (fun e => { e with followers := e.followers.erase k, marksOut := marksWithout k e.marksOut })).updSession
      k (fun e => { e with pacer := none })

/-- The point fetch of the session, if one is in flight, is void (R16, R18). -/
def voidFetches (k : SessionId) (s : State) : State :=
  { s with fetches := s.fetches.map (fun f => if f.session = k then { f with isVoid := true } else f) }

/-- Every output line of the session is released (R16, R119). -/
def releaseOutputs (k : SessionId) (s : State) : State :=
  { s with outputs := s.outputs.map (fun o => if o.owner = some k then OutputLine.released else o) }

/-- The pending store of a ring without the records of a session (R17); a failed write of a record that stays placed
no longer concerns it (log 16). -/
def ReportRing.purge (r : ReportRing) (k : SessionId) : ReportRing :=
  { r with
    store := r.store.filter (fun rec => decide (rec.sessionOf ≠ some k))
    unwritten := r.unwritten.map (fun p => if p.owner = some k then { p with owner := none } else p) }

/-- The purge at the close of a session (R17). -/
def purgeSession (k : SessionId) (s : State) : State :=
  match (s.session k).reportRing with
  | none => s
  | some r => s.updReportRing r (·.purge k)

/-- The session's waits complete with SESSION_CLOSED (R16). -/
def closeWaits (k : SessionId) (s : State) : State := completeWaits k (fun _ => some .sessionClosed) s

/-- The waits of a list are discarded (R19). -/
def discardWaits : List WaitId → State → State
  | [], s => s
  | w :: rest, s => discardWaits rest (discardWait w s)

/-- The session's waits are discarded (R19). -/
def dropWaits (k : SessionId) (s : State) : State := discardWaits (s.session k).waits s

/-- The steps of a close in order: followers, own pacer, waits, fetches, outputs, pending records, entry (R16). The marks
already handed to the followers reach them first (R89). The close without reports differs in what becomes of the waits
(R19). -/
def closeSession (endWaits : SessionId → State → State) (k : SessionId) (s : State) : State :=
  let s0 := flushMarks k s
  let s1 := leavePacer k (releaseFollowers k (s0.session k).followers s0)
  let s2 := voidFetches k (endWaits k s1)
  (purgeSession k (releaseOutputs k s2)).setSession k {}

/-- CLOSE after the common validation (R15, R16). -/
def closeBody (ring : JobRingId) (k : SessionId) (w : JobRecord) (s : State) : State :=
  let n := (s.session k).followers.length
  if n ≠ 0 ∧ w.flag 0 = false then reply ring w .bound n s
  else reply ring w .success n (closeSession closeWaits k s)

/-- CLOSE. -/
def execClose (w : JobRecord) (s : State) : Host.Outcome State Fault Refusal :=
  .next (withTaken (workJob closeBody w) s)

end Sys2Proof.Machine
end

