-- ==== Sys2Proof/Machine/ReportRings.lean ====
section
/-!
DEFINITION. The Report Writer (R143 to R157): the ends of bus writes, RRELEASE, MAKE_REPORT_RING, DROP_REPORT_RING
with its cascade, and REPORT_RING_DROPPED.
-/

namespace Sys2Proof.Machine

/-! ### Bus writes -/

/-- The address of a slot (R146). -/
def ReportRing.slotAddress (r : ReportRing) (slot : Nat) : Nat := r.base + 16 * slot

/-- The bytes of a placed record reach host memory (R146, R178). -/
def storeRecord (r : ReportRing) (p : Placed) (s : State) : State :=
  { s with hostMemory := s.hostMemory.writeBytes (r.slotAddress p.slot) (recordBytes (p.record.encode p.lap)) }

/-- The oldest bus write of a ring completes: the host sees the record, and Notification is told (R146, R159). -/
def writeDone (ring : ReportRingId) (p : Placed) (rest : List Placed) (s : State) : State :=
  recordWritten ring
    ((storeRecord (s.reportRing ring) p s).updReportRing ring (fun r => { r with unwritten := rest }))

/-- A bus write of the ring that was under way at a reset ends; `lands` says that it completed (R143, log 17). -/
def endStray (ring : ReportRingId) (lands : Bool) (s : State) : State :=
  match s.strays.find? (fun x => decide (x.ring = ring)) with
  | none => s
  | some x =>
    { s with
      strays := s.strays.erase x
      hostMemory := if lands then s.hostMemory.writeBytes x.address (recordBytes x.data) else s.hostMemory }

/-- REPORT_WRITE_DONE. A ring with no write under way has none that completes, but for one of before a reset. -/
def execReportWriteDone (ring : ReportRingId) (s : State) : Host.Outcome State Fault Refusal :=
  .next
    (match (s.reportRing ring).unwritten with
    | [] => endStray ring true s
    | p :: rest => writeDone ring p rest s)

/-- The lost counts of the sessions whose placed records are lost (R153, steps 1 and 2). -/
def loseRecords : List Placed → State → State
  | [], s => s
  | p :: rest, s =>
    loseRecords rest
      (match p.owner with
      | none => s
      | some k => s.updSession k (fun e => { e with lost := satInc e.lost }))

/-- The ring as a write error leaves it (R153, steps 2 to 6). -/
def ReportRing.broke (r : ReportRing) : ReportRing :=
  { r with state := .broken, reservations := 0, store := [], unwritten := [] }

/-- A bus write of an OPEN ring ends with a bus error (R153, R154). -/
def ringBreaks (ring : ReportRingId) (s : State) : State :=
  let s1 := (loseRecords (s.reportRing ring).unwritten s).updReportRing ring ReportRing.broke
  if ring = 0 then { s1 with fatalCause := .rr0Broken }
  else postRingNotice .rrBroken (toWord ring.val) s1

/-- REPORT_WRITE_ERROR. A ring with no write under way has none that fails; a bus error of a write of before a reset is
ignored (R172). -/
def execReportWriteError (ring : ReportRingId) (s : State) : Host.Outcome State Fault Refusal :=
  .next
    (match (s.reportRing ring).unwritten with
    | [] => endStray ring false s
    | _ :: _ => ringBreaks ring s)

/-! ### RRELEASE -/

/-- The release count of a new release index (R147). -/
def ReportRing.releaseCount (r : ReportRing) (index : Nat) : Nat := (index + r.size - r.releaseIndex) % r.size

/-- The write is accepted by the ring (R147). -/
def ReportRing.acceptsRelease (r : ReportRing) (index : Nat) : Bool :=
  decide (r.state ≠ .absent) && decide (index < r.size) && decide (r.releaseCount index ≤ r.outstanding)

/-- The ring after an accepted release (R147, R150). -/
def ReportRing.released (r : ReportRing) (index : Nat) : ReportRing :=
  let r1 := { r with releaseIndex := index, outstanding := r.outstanding - r.releaseCount index }
  if r.state = .opened then r1.drain else r1

/-- A write to RRELEASE (R147). -/
def releaseWrite (word : Word32) (s : State) : State :=
  match reportRingOf (ringField word) with
  | none => { s with badIndex := true }
  | some ring =>
    if (s.reportRing ring).acceptsRelease (indexField word) then
      s.updReportRing ring (·.released (indexField word))
    else { s with badIndex := true }

/-- RRELEASE. While READY is 0 a write is ignored (R165). -/
def execRrelease (word : Word32) (s : State) : Host.Outcome State Fault Refusal :=
  .next (if s.phase = .ready then releaseWrite word s else s)

/-! ### MAKE_REPORT_RING -/

/-- A report ring as it is made (R155, R170). -/
def madeReportRing (base size : Nat) (notify : NotifyMode) : ReportRing :=
  { state := .opened, base, size, writeIndex := 0, lap := true, releaseIndex := 0, outstanding := 0, reservations := 0,
    store := [], unwritten := [], notify, unnotified := 0, batchTimer := none }

/-- MAKE_REPORT_RING after the common validation (R155). -/
def makeReportRingBody (w : JobRecord) (s : State) : State :=
  match workReportRingOf (w.byte 8) with
  | none => replyControl 0 w .badParam 0 s
  | some r =>
    if (s.reportRing r).state ≠ .absent then replyControl 0 w .ringExists 0 s
    else if ringGeometryOk 16 (w.half 12).toNat (w.quad 16).toNat = false then replyControl 0 w .badParam 0 s
    else
      match notifyOf (w.byte 9) (w.byte 10) (w.half 14) with
      | none => replyControl 0 w .badParam 0 s
      | some mode =>
        replyControl 0 w .success r.val
          (s.setReportRing r (madeReportRing (w.quad 16).toNat (w.half 12).toNat mode))

/-- MAKE_REPORT_RING. -/
def execMakeReportRing (w : JobRecord) (s : State) : Host.Outcome State Fault Refusal :=
  .next (withTaken (controlJob makeReportRingBody w) s)

/-! ### DROP_REPORT_RING -/

/-- The job ring exists and is bound to the report ring. -/
def JobRing.isBoundTo (j : JobRing) (r : ReportRingId) : Bool := decide (j.state ≠ .absent) && decide (j.bound = r)

/-- The job rings bound to a report ring, in increasing id. -/
def State.boundRings (s : State) (r : ReportRingId) : List JobRingId :=
  allJobRings.filter (fun j => (s.jobRing j).isBoundTo r)

/-- The sessions that report to a report ring, in increasing id. -/
def State.reporters (s : State) (r : ReportRingId) : List SessionId :=
  allSessions.filter (fun k => decide ((s.session k).reportRing = some r))

/-- The number of job rings bound to a report ring and of sessions that report to it (R156). -/
def State.usersOf (s : State) (r : ReportRingId) : Nat := (s.boundRings r).length + (s.reporters r).length

/-- The cascade drops a job ring; a point fetch in flight on it belongs to no ring from then on (R157, R70). -/
def cascadeDropRing (j : JobRingId) (s : State) : State :=
  forgetJobRing j { s with fetches := s.fetches.map (fun f => if f.ring = j then { f with orphan := true } else f) }

/-- The cascade drops the job rings of a list. -/
def cascadeDropRings : List JobRingId → State → State
  | [], s => s
  | j :: rest, s => cascadeDropRings rest (cascadeDropRing j s)

/-- The close without reports (R19). -/
def closeQuietly (k : SessionId) (s : State) : State := closeSession dropWaits k s

/-- The cascade closes the sessions of a list. -/
def closeAllQuietly : List SessionId → State → State
  | [], s => s
  | k :: rest, s => closeAllQuietly rest (closeQuietly k s)

/-- The sessions the cascade closes: those owned by a dropped job ring and those that report to the ring (R157). -/
def State.cascadeSessions (s : State) (r : ReportRingId) (rings : List JobRingId) : List SessionId :=
  allSessions.filter (fun k =>
    (s.session k).owner.any (· ∈ rings) || decide ((s.session k).reportRing = some r))

/-- A report ring is forgotten (R156, R157). -/
def forgetReportRing (r : ReportRingId) (s : State) : State := s.setReportRing r {}

/-- The cascade of a BROKEN ring (R157): job rings, sessions, ring; the JOB record counts the sessions closed. -/
def cascade (r : ReportRingId) (tag : BitVec 16) (s : State) : State :=
  let rings := s.boundRings r
  let victims := s.cascadeSessions r rings
  let s1 := forgetReportRing r (closeAllQuietly victims (cascadeDropRings rings s))
  answer 0 (s1.jobRing 0).bound tag
    { status := .success, session := noSessionField, value := toWord victims.length, stamp := s1.stamp } s1

/-- An OPEN ring that nothing uses is dropped once its writes have ended (R156). -/
def dropUnused (r : ReportRingId) (tag : BitVec 16) (s : State) : State :=
  let s1 := forgetReportRing r s
  answer 0 (s1.jobRing 0).bound tag { status := .success, session := noSessionField, stamp := s1.stamp } s1

/-- DROP_REPORT_RING after the common validation (R156, R157). With writes of an unused OPEN ring still under way the
take stays in progress until the last of them has ended (log 15). -/
def dropReportRingBody (w : JobRecord) (s : State) : State :=
  match workReportRingOf (w.byte 8) with
  | none => replyControl 0 w .badParam 0 s
  | some r =>
    match (s.reportRing r).state with
    | .absent => replyControl 0 w .noRing 0 s
    | .broken => cascade r w.tag s
    | .opened =>
      if s.usersOf r ≠ 0 then replyControl 0 w .inUse (s.usersOf r) s
      else if (s.reportRing r).unwritten = [] then dropUnused r w.tag s
      else { s with taking := some { ring := 0, stage := .dropping r w.tag } }

/-- DROP_REPORT_RING. -/
def execDropReportRing (w : JobRecord) (s : State) : Host.Outcome State Fault Refusal :=
  .next (withTaken (controlJob dropReportRingBody w) s)

/-- The drop that waits goes on: the ring has no write under way any more (R156). -/
def finishDrop (r : ReportRingId) (tag : BitVec 16) (s : State) : State :=
  if (s.reportRing r).state = .broken then cascade r tag s else dropUnused r tag s

/-- REPORT_RING_DROPPED. Without a drop that waits, or while a write is still under way, nothing has ended (R156). -/
def execReportRingDropped (s : State) : Host.Outcome State Fault Refusal :=
  .next
    (match s.taking with
    | none => s
    | some t =>
      match t.stage with
      | .reading _ => s
      | .dropping r tag =>
        if (s.reportRing r).unwritten = [] then finishDrop r tag (settle { s with taking := none }) else s)

end Sys2Proof.Machine
end

