-- ==== Sys2Proof/Machine/Registers.lean ====
section
/-!
DEFINITION. The register window (R165 to R168, R180), JPOST (R127), run control (R166, R171), start-up (R170), the
engine reset (R172) and the hardware reset (R169).
-/

namespace Sys2Proof.Machine

/-! ### Reading -/

/-- IDENT (R180). -/
def identWord : Word32 :=
  toWord (0x3c + 1 * 2 ^ 8 + 31 * 2 ^ 14 + 15 * 2 ^ 19 + 7 * 2 ^ 23 + 7 * 2 ^ 26 + 7 * 2 ^ 29)

/-- STATUS.TAKING: a take is in progress, or a job ring has its fetch-in-flight mark set (R167). -/
def State.takingBit (s : State) : Bool := s.taking.isSome || allJobRings.any (fun r => (s.jobRing r).fetchInFlight)

/-- The fatal-cause field (R180). -/
def FatalCause.bits : FatalCause → Nat
  | .none => 0
  | .config => 1
  | .rr0Broken => 2

/-- CONTROL as read (R166, R180). -/
def State.controlWord (s : State) : Word32 :=
  toWord ((if s.run then 1 else 0) + (if s.phase = .engineReset then 2 else 0) + (if s.intEnable then 4 else 0))

/-- STATUS as read (R167, R180). -/
def State.statusWord (s : State) : Word32 :=
  toWord ((if s.phase = .ready then 1 else 0) + (if s.takingBit then 2 else 0) + (if s.isFatal then 4 else 0)
    + s.fatalCause.bits * 16 + (if s.badIndex then 256 else 0))

/-- CR_SIZES as read (R168, R180). -/
def State.crSizesWord (s : State) : Word32 := toWord (s.crJr0Size.toNat + s.crRr0Size.toNat * 2 ^ 16)

/-- A read of the register window at a byte offset: the value at the moment of the read, and nothing changes (R165,
R180). An offset outside the map reads 0 (log 21). -/
def State.readRegister (s : State) (offset : Nat) : Word32 :=
  match offset with
  | 0x00 => identWord
  | 0x04 => s.controlWord
  | 0x08 => s.statusWord
  | 0x0c => s.crBaseLo
  | 0x10 => s.crBaseHi
  | 0x14 => s.crSizesWord
  | 0x20 => s.intPending.setWidth 32
  | _ => 0

/-! ### JPOST and STATUS -/

/-- A write to JPOST (R127). -/
def postWrite (word : Word32) (s : State) : State :=
  match jobRingOf (ringField word) with
  | none => { s with badIndex := true }
  | some r =>
    if (s.jobRing r).state ≠ .absent ∧ indexField word < (s.jobRing r).size then
      s.updJobRing r (fun j => { j with post := indexField word })
    else { s with badIndex := true }

/-- JPOST. While READY is 0 a write is ignored (R165). -/
def execJpost (word : Word32) (s : State) : Host.Outcome State Fault Refusal :=
  .next (if s.phase = .ready then postWrite word s else s)

/-- A write to STATUS: BAD_INDEX written 1 is cleared (R167). -/
def statusWrite (word : Word32) (s : State) : State := if statusBadIndex word then { s with badIndex := false } else s

/-- BAD_INDEX_CLEAR. While READY is 0 a write is ignored (R165). -/
def execBadIndexClear (word : Word32) (s : State) : Host.Outcome State Fault Refusal :=
  .next (if s.phase = .ready then statusWrite word s else s)

/-! ### The control region and start-up -/

/-- A write to a register of the control region, accepted while RUN is 0 (R168). -/
def regionWrite (reg : CrRegister) (word : Word32) (s : State) : State :=
  if s.run then s
  else
    match reg with
    | .baseLo => { s with crBaseLo := word }
    | .baseHi => { s with crBaseHi := word }
    | .sizes => { s with crJr0Size := word.extractLsb' 0 9, crRr0Size := word.extractLsb' 16 9 }

/-- CONTROL_REGION_WRITE. While READY is 0 a write is ignored (R165, R168). -/
def execControlRegionWrite (reg : CrRegister) (word : Word32) (s : State) : Host.Outcome State Fault Refusal :=
  .next (if s.phase = .ready then regionWrite reg word s else s)

/-- The base of the control region (R168). -/
def State.regionBase (s : State) : Nat := s.crBaseHi.toNat * 2 ^ 32 + s.crBaseLo.toNat

/-- The base of RR0: JR0's slots come first (R168). -/
def State.rr0Base (s : State) : Nat := s.regionBase + 32 * s.crJr0Size.toNat

/-- The four checks of the control region (R170). -/
def State.regionOk (s : State) : Bool :=
  decide (2 ≤ s.crJr0Size.toNat) && decide (s.crJr0Size.toNat ≤ 256) && decide (2 ≤ s.crRr0Size.toNat) &&
    decide (s.crRr0Size.toNat ≤ 256) && decide (s.regionBase % 32 = 0) &&
    decide (s.rr0Base + 16 * s.crRr0Size.toNat ≤ Config.addressSpace)

/-- JR0 as start-up makes it (R125, R170). JR0 does not use its weight and no rule gives it one: 0 is the model's choice
(log 32). -/
def State.madeJr0 (s : State) : JobRing :=
  { state := .running, base := s.regionBase, size := s.crJr0Size.toNat, post := 0, take := 0, bound := 0,
    haltFlag := false, weight := 0, fetchInFlight := false }

/-- Start-up: the control rings are made and RUN becomes 1, or FATAL with cause CONFIG (R170). -/
def startPart (s : State) : State :=
  if s.regionOk then
    { (s.setReportRing 0 (madeReportRing s.rr0Base s.crRr0Size.toNat .each)).setJobRing 0 s.madeJr0 with
      rr0Lost := 0, run := true }
  else { s with fatalCause := .config }

/-! ### Engine reset and CONTROL -/

/-- The head of a ring's unwritten records: the bus write that is under way (R146). -/
def ReportRing.stray (r : ReportRing) (id : ReportRingId) : List StrayWrite :=
  match r.unwritten with
  | [] => []
  | p :: _ => [{ ring := id, address := r.slotAddress p.slot, data := p.record.encode p.lap }]

/-- The bus writes under way, which a reset leaves to the bus (R143, log 17). -/
def State.inFlightWrites (s : State) : List StrayWrite :=
  allReportRings.flatMap (fun r => (s.reportRing r).stray r)

/-- The steps of an engine reset, as one event (R172, R20, R119, R143, R158): what is not named is kept. -/
def engineResets (s : State) : State :=
  { s with
    phase := .engineReset
    run := false
    fatalCause := .none
    intPending := 0
    outputs := State.reset.outputs
    sessions := State.reset.sessions
    waits := State.reset.waits
    jobRings := State.reset.jobRings
    turn := State.reset.turn
    turnLeft := State.reset.turnLeft
    taking := none
    fetches := []
    strays := s.strays ++ s.inFlightWrites
    reportRings := State.reset.reportRings
    rr0Lost := 0 }

/-- The RUN field of a CONTROL write (R166, R170, R171). -/
def runWrite (value : Bool) (s : State) : State :=
  if s.isFatal then s
  else if value = true ∧ s.run = false ∧ (s.jobRing 0).state = .absent then startPart s
  else { s with run := value }

/-- A write to CONTROL: INT_ENABLE in every case; RESET 1 starts an engine reset; otherwise RUN (R166). -/
def controlWrite (word : Word32) (s : State) : State :=
  let s1 := { s with intEnable := controlIntEnable word }
  if controlReset word then engineResets s1 else runWrite (controlRun word) s1

/-- RUN. While READY is 0 a write is ignored (R165). -/
def execRun (word : Word32) (s : State) : Host.Outcome State Fault Refusal :=
  .next (if s.phase = .ready then controlWrite word s else s)

/-- START_UP. While READY is 0 a write is ignored (R165). -/
def execStartUp (word : Word32) (s : State) : Host.Outcome State Fault Refusal :=
  .next (if s.phase = .ready then controlWrite word s else s)

/-- INT_ENABLE. While READY is 0 a write is ignored (R165). -/
def execIntEnable (word : Word32) (s : State) : Host.Outcome State Fault Refusal :=
  .next (if s.phase = .ready then controlWrite word s else s)

/-- ENGINE_RESET. While READY is 0 a write is ignored (R165). -/
def execEngineReset (word : Word32) (s : State) : Host.Outcome State Fault Refusal :=
  .next (if s.phase = .ready then controlWrite word s else s)

/-- ENGINE_RESET_END: READY becomes 1 and RESET reads 0 (R172). -/
def execEngineResetEnd (s : State) : Host.Outcome State Fault Refusal :=
  .next (if s.phase = .engineReset then { s with phase := .ready } else s)

/-! ### Any register write -/

/-- A write at a byte offset of the register window (R165, R180). IDENT has no behaviour of its own, and an offset
outside the map is no register (log 21): both are ignored. -/
def windowWrite (offset : Nat) (word : Word32) (s : State) : State :=
  match offset with
  | 0x04 => controlWrite word s
  | 0x08 => statusWrite word s
  | 0x0c => regionWrite .baseLo word s
  | 0x10 => regionWrite .baseHi word s
  | 0x14 => regionWrite .sizes word s
  | 0x18 => postWrite word s
  | 0x1c => releaseWrite word s
  | 0x20 => clearPending word s
  | _ => s

/-- REGISTER_WRITE. While READY is 0 every write is ignored (R165). -/
def execRegisterWrite (offset : Nat) (word : Word32) (s : State) : Host.Outcome State Fault Refusal :=
  .next (if s.phase = .ready then windowWrite offset word s else s)

/-! ### Hardware reset -/

/-- HARDWARE_RESET: every register and block takes its value after hardware reset (R169, R20, R113, R118, R143). The
queue of commands and the bytes of host memory are not the part's. -/
def execHardwareReset (s : State) : Host.Outcome State Fault Refusal :=
  .next
    { State.reset with
      pending := s.pending, strays := s.strays ++ s.inFlightWrites, hostMemory := s.hostMemory }

/-- The first sample of a filter after a hardware reset, accepted without filtering (R113). -/
def firstSamples (levels : BitVec 16) : List LineId → State → State
  | [], s => s
  | l :: rest, s =>
    firstSamples levels rest (s.setLine l { s.line l with accepted := levels.getLsbD l.val, runCount := 0 })

/-- RESET_N_RISE: initialisation begins, the clocks start and each filter accepts its first sample (R169). A RESET_N
that is high does not rise. -/
def execResetNRise (levels : BitVec 16) (s : State) : Host.Outcome State Fault Refusal :=
  .next
    (if s.phase = .hardwareReset then firstSamples levels allLines { s with phase := .initialising } else s)

/-- INITIALISATION_END: READY becomes 1 (R169). -/
def execInitialisationEnd (s : State) : Host.Outcome State Fault Refusal :=
  .next (if s.phase = .initialising then { s with phase := .ready } else s)

end Sys2Proof.Machine
end

