-- ==== Sys2Proof/Machine/Timed.lean ====
section
/-!
DEFINITION. The events of the Timebase at the sessions: TICK (R43), WINDOW_TIMER_EXPIRY (R48), INTERVAL_WINDOW_END
(R54), PACE_MARK (R90), and the stamp clock (R40).
-/

namespace Sys2Proof.Machine

/-- TICK: a tick of the rate reaches every ACTIVE timed session that selects it, in the order given where the rules
set none, with the window ends and marks that the order takes among the ticks (R39, R43, R56; log 1, log 7). -/
def execTick (rate : TickRate) (order : List TickTurn) (s : State) : Host.Outcome State Fault Refusal :=
  .next (tickList rate (planned TickTurn.isTick order allTicks) (settle s))

/-- WINDOW_TIMER_EXPIRY: the window of a RATE session with OWN source ends when window elapsed equals the window
length; otherwise its timer has not run out (R48). -/
def execWindowTimerExpiry (i : SessionId) (s : State) : Host.Outcome State Fault Refusal :=
  .next (if (s.session i).timerExpired then windowEnd i s else s)

/-- INTERVAL_WINDOW_END: the window end that a step has caused (R30, R54). -/
def execIntervalWindowEnd (i : SessionId) (s : State) : Host.Outcome State Fault Refusal :=
  .next (if (s.session i).windowEndDue then windowEnd i s else s)

/-- PACE_MARK: the follower takes the oldest mark handed to it, if no earlier follower of the list is still to take its
mark of the same event (R58, R90). -/
def execPaceMark (f : SessionId) (s : State) : Host.Outcome State Fault Refusal :=
  .next (takeMark f (settle s))

/-- STAMP_CLOCK_ADVANCE: one more, continuing at 0 (R40). While RESET_N is low the stamp clock stands at 0 (R169). A window
end that a step has noted is not taken first: it reaches no session, and R54 does not say whether the clock may advance
between the step and its window end (log 11). -/
def execStampClockAdvance (s : State) : Host.Outcome State Fault Refusal :=
  .next (if s.phase = .hardwareReset then s else { s with stamp := s.stamp + 1 })

end Sys2Proof.Machine
end

