-- ==== Sys2Proof/Machine/Waits.lean ====
section
/-!
DEFINITION. AWAIT (R98 to R101), CANCEL_WAIT (R109) and the timeout of a wait (R107).
-/

namespace Sys2Proof.Machine

/-- The lowest-numbered free entry of the pool (R96). -/
def State.freeEntry (s : State) : Option WaitId := allWaits.find? (fun w => (s.wait w).isNone)

/-- The entry an AWAIT takes (R101). -/
def newWait (ring : JobRingId) (k : SessionId) (w : JobRecord) (cond : WaitCond) (s : State) : WaitEntry :=
  let timeout := w.word 16
  { session := k, ring, tag := w.tag, cond
    deadline := if timeout = 0 then none else some (s.stamp + timeout)
    timer := if timeout = 0 then none else some (Config.periodsPerMicro * timeout.toNat)
    reportRing := (s.jobRing ring).bound }

/-- A wait is taken: its entry, and the tail of the session's wait list (R101). The reservation passes to the entry. -/
def takeWait (ring : JobRingId) (k : SessionId) (w : JobRecord) (cond : WaitCond) (id : WaitId) (s : State) : State :=
  (s.setWait id (some (newWait ring k w cond s))).updSession k (fun e => { e with waits := e.waits ++ [id] })

/-- AWAIT after the common validation and the state check (R98 to R101). -/
def awaitBody (ring : JobRingId) (k : SessionId) (w : JobRecord) (s : State) : State :=
  let e := s.session k
  match awaitCond w e.limitValue (e.mode.any (·.isTimed)) with
  | none => reply ring w .badParam 0 s
  | some cond =>
    if Config.maxSessionWaits ≤ e.waits.length then reply ring w .noWaitSpace e.waits.length s
    else
      match s.freeEntry with
      | none => reply ring w .noWaitSpace e.waits.length s
      | some id =>
        if cond.metAtEntry e.count e.state then reply ring w .metAtEntry e.count s
        else takeWait ring k w cond id s

/-- AWAIT. -/
def execAwait (w : JobRecord) (s : State) : Host.Outcome State Fault Refusal :=
  .next (withTaken (workJob awaitBody w) s)

/-- The waits of the list with the target tag and the ring (R109). -/
def cancelTargets (ring : JobRingId) (tag : BitVec 16) (s : State) (waits : List WaitId) : List WaitId :=
  waits.filter (fun w => (s.wait w).any (fun e => decide (e.tag = tag) && decide (e.ring = ring)))

/-- The waits of a list complete with CANCELLED, in list order (R109). -/
def cancelList : List WaitId → State → State
  | [], s => s
  | w :: rest, s => cancelList rest (completeWait w .cancelled s)

/-- CANCEL_WAIT after the common validation and the state check (R109). -/
def cancelWaitBody (ring : JobRingId) (k : SessionId) (w : JobRecord) (s : State) : State :=
  let targets := cancelTargets ring (w.half 8) s (s.session k).waits
  reply ring w .success targets.length (cancelList targets s)

/-- CANCEL_WAIT. -/
def execCancelWait (w : JobRecord) (s : State) : Host.Outcome State Fault Refusal :=
  .next (withTaken (workJob cancelWaitBody w) s)

/-- WAIT_TIMEOUT (R107): the wait completes with TIMEOUT, stamped with its deadline. A free entry, or one whose timer
does not run or has time to go, has no expiry (R41). -/
def execWaitTimeout (w : WaitId) (s : State) : Host.Outcome State Fault Refusal :=
  .next
    (match s.wait w with
    | none => s
    | some e =>
      match e.timer, e.deadline with
      | some 0, some deadline => completeWaitAt w .timeout deadline (settle s)
      | _, _ => s)

end Sys2Proof.Machine
end

