-- ==== Sys2Proof/Machine/Take.lean ====
section
/-!
DEFINITION. JOB_TAKE (R130): the taker's choice, and the arrival of a record of any kind code, one of no kind among
them (R134, R175).
-/

namespace Sys2Proof.Machine

/-- The job of a record of a kind, from its common validation on (R134). -/
def jobOf (k : Kind) (w : JobRecord) : JobRingId → State → State :=
  match k with
  | .openJob => openChecked w
  | .closeJob => workJob closeBody w
  | .startJob => workJob startBody w
  | .stopJob => workJob stopBody w
  | .preset => workJob presetBody w
  | .read => workJob readBody w
  | .loadPoints => workJob loadPointsBody w
  | .commitPoints => workJob commitPointsBody w
  | .hold => workJob holdBody w
  | .release => workJob releaseBody w
  | .awaitJob => workJob awaitBody w
  | .cancelWait => workJob cancelWaitBody w
  | .outputs => workJob outputsBody w
  | .makeJobRing => controlJob makeJobRingBody w
  | .dropJobRing => controlJob dropJobRingBody w
  | .restartJobRing => controlJob restartJobRingBody w
  | .makeReportRing => controlJob makeReportRingBody w
  | .dropReportRing => controlJob dropReportRingBody w
  | .tuneReportRing => controlJob tuneReportRingBody w
  | .lineSetup => controlJob lineSetupBody w

/-- The job of a fetched record by its kind code; a code in no table is BAD_KIND (R134, R175). -/
def jobOfRecord (w : JobRecord) : JobRingId → State → State :=
  match Kind.ofCode w.kindCode with
  | none => badKindJob w
  | some k => jobOf k w

/-- JOB_TAKE: the taker's choice, or the arrival of the record of the take in progress (R129, R130; log 2, log 3). -/
def execJobTake (fetched : Option JobRecord) (s : State) : Host.Outcome State Fault Refusal :=
  .next
    (match fetched with
    | none => takerChoice s
    | some w => withTaken (jobOfRecord w) s)

end Sys2Proof.Machine
end

