-- ==== Sys2Proof/Machine/Dispatch.lean ====
section
/-! DEFINITION. The command to its meaning: one arm for each row of spec/opcode_table.json. -/

namespace Sys2Proof.Machine

def exec (i : Instr) (s : State) : Host.Outcome State Fault Refusal :=
  match i with
  | .jobTake fetched => Sys2Proof.Machine.execJobTake fetched s
  | .recordFetchError => Sys2Proof.Machine.execRecordFetchError s
  | .openJob rec => Sys2Proof.Machine.execOpen rec s
  | .closeJob rec => Sys2Proof.Machine.execClose rec s
  | .startJob rec => Sys2Proof.Machine.execStart rec s
  | .stopJob rec => Sys2Proof.Machine.execStop rec s
  | .preset rec => Sys2Proof.Machine.execPreset rec s
  | .read rec => Sys2Proof.Machine.execRead rec s
  | .loadPoints rec => Sys2Proof.Machine.execLoadPoints rec s
  | .commitPoints rec => Sys2Proof.Machine.execCommitPoints rec s
  | .hold rec => Sys2Proof.Machine.execHold rec s
  | .release rec => Sys2Proof.Machine.execRelease rec s
  | .awaitJob rec => Sys2Proof.Machine.execAwait rec s
  | .cancelWait rec => Sys2Proof.Machine.execCancelWait rec s
  | .outputs rec => Sys2Proof.Machine.execOutputs rec s
  | .makeJobRing rec => Sys2Proof.Machine.execMakeJobRing rec s
  | .dropJobRing rec => Sys2Proof.Machine.execDropJobRing rec s
  | .restartJobRing rec => Sys2Proof.Machine.execRestartJobRing rec s
  | .makeReportRing rec => Sys2Proof.Machine.execMakeReportRing rec s
  | .dropReportRing rec => Sys2Proof.Machine.execDropReportRing rec s
  | .reportRingDropped => Sys2Proof.Machine.execReportRingDropped s
  | .tuneReportRing rec => Sys2Proof.Machine.execTuneReportRing rec s
  | .lineSetup rec => Sys2Proof.Machine.execLineSetup rec s
  | .pointFetchDone fetch entries => Sys2Proof.Machine.execPointFetchDone fetch entries s
  | .pointFetchError fetch entry => Sys2Proof.Machine.execPointFetchError fetch entry s
  | .qualifiedEdge lines order => Sys2Proof.Machine.execQualifiedEdge lines order s
  | .tick rate order => Sys2Proof.Machine.execTick rate order s
  | .windowTimerExpiry session => Sys2Proof.Machine.execWindowTimerExpiry session s
  | .intervalWindowEnd session => Sys2Proof.Machine.execIntervalWindowEnd session s
  | .paceMark follower => Sys2Proof.Machine.execPaceMark follower s
  | .pulseExpiry line => Sys2Proof.Machine.execPulseExpiry line s
  | .waitTimeout entry => Sys2Proof.Machine.execWaitTimeout entry s
  | .batchTimerExpiry ring => Sys2Proof.Machine.execBatchTimerExpiry ring s
  | .reportWriteDone ring => Sys2Proof.Machine.execReportWriteDone ring s
  | .reportWriteError ring => Sys2Proof.Machine.execReportWriteError ring s
  | .jpost word => Sys2Proof.Machine.execJpost word s
  | .rrelease word => Sys2Proof.Machine.execRrelease word s
  | .intPending word => Sys2Proof.Machine.execIntPending word s
  | .badIndexClear word => Sys2Proof.Machine.execBadIndexClear word s
  | .run word => Sys2Proof.Machine.execRun word s
  | .startUp word => Sys2Proof.Machine.execStartUp word s
  | .intEnable word => Sys2Proof.Machine.execIntEnable word s
  | .engineReset word => Sys2Proof.Machine.execEngineReset word s
  | .engineResetEnd => Sys2Proof.Machine.execEngineResetEnd s
  | .controlRegionWrite reg word => Sys2Proof.Machine.execControlRegionWrite reg word s
  | .registerWrite offset word => Sys2Proof.Machine.execRegisterWrite offset word s
  | .hardwareReset => Sys2Proof.Machine.execHardwareReset s
  | .resetNRise levels => Sys2Proof.Machine.execResetNRise levels s
  | .initialisationEnd => Sys2Proof.Machine.execInitialisationEnd s
  | .rawPinSample levels order => Sys2Proof.Machine.execRawPinSample levels order s
  | .stampClockAdvance => Sys2Proof.Machine.execStampClockAdvance s

end Sys2Proof.Machine
end

