-- ==== Sys2Proof/Safety.lean ====
section
/-!
DEFINITION. The terms that claims use: what a state of the part always keeps (the invariants of R1, R28, R60, R88, R97,
R149, R150), what a job finds and how it is answered, and when an event of the part's own blocks occurs and falls due
(log 7, log 9).
-/

namespace Sys2Proof

/-- The reference periods of a tick (R39). -/
def TickRate.periods : TickRate → Nat
  | .ns10 => 1
  | .ns100 => 10
  | .us1 => 100
  | .us10 => 1000
  | .us100 => 10000

/-- The row of the table that a kind names (R175). -/
def Kind.command : Kind → JobRecord → Instr
  | .openJob => .openJob
  | .closeJob => .closeJob
  | .startJob => .startJob
  | .stopJob => .stopJob
  | .preset => .preset
  | .read => .read
  | .loadPoints => .loadPoints
  | .commitPoints => .commitPoints
  | .hold => .hold
  | .release => .release
  | .awaitJob => .awaitJob
  | .cancelWait => .cancelWait
  | .outputs => .outputs
  | .makeJobRing => .makeJobRing
  | .dropJobRing => .dropJobRing
  | .restartJobRing => .restartJobRing
  | .makeReportRing => .makeReportRing
  | .dropReportRing => .dropReportRing
  | .tuneReportRing => .tuneReportRing
  | .lineSetup => .lineSetup

/-- The seven control kinds (R134). -/
def Kind.isControl : Kind → Bool
  | .makeJobRing | .dropJobRing | .restartJobRing | .makeReportRing | .dropReportRing | .tuneReportRing
  | .lineSetup => true
  | .openJob | .closeJob | .startJob | .stopJob | .preset | .read | .loadPoints | .commitPoints | .hold | .release
  | .awaitJob | .cancelWait | .outputs => false

end Sys2Proof

namespace Sys2Proof.Machine

/-! ### When an event falls due -/

/-- The read of a record is in flight for a ring (R130). -/
def State.readsFor (s : State) (r : JobRingId) : Prop :=
  ∃ address, s.taking = some { ring := r, stage := .reading address }

/-- The time of the Timebase at which a tick and the stamp clock fall due: the zero of their dividers. The other commands
have their conditions in `exec`. The sender keeps this; `exec` does not check it (log 7). R39 and R40 have the dividers start
in step after a hardware reset and do not say at which period the first tick of each rate and the first stamp advance fall
due: that they are due at count 0, as RESET_N rises, is the model's choice (log 31). -/
def onTime (s : State) : Instr → Bool
  | .tick rate _ => decide (s.refPhase % rate.periods = 0)
  | .stampClockAdvance => decide (s.refPhase % Config.periodsPerMicro = 0)
  | _ => true

/-- No INTERVAL window end that a step has caused is still to be taken (log 11). -/
def State.settled (s : State) : Prop := ∀ i, (s.session i).windowEndDue = false

/-! ### What a job finds and how it is answered -/

/-- A work job of a ring is about to reach its own checks on a session: its record arrives, it was taken from a work
ring, and its session is not FREE and is owned by the ring (R130, R134). -/
def JobReaches (w : JobRecord) (r : JobRingId) (k : SessionId) (s : State) : Prop :=
  s.readsFor r ∧ r ≠ 0 ∧ sessionOf w.session = some k ∧
    ((recordArrives r s).session k).state ≠ .free ∧ ((recordArrives r s).session k).owner = some r

/-- The JOB record of an answer of a job of ring `r`, with the fields R136 gives it; `t` is the state at the hand-off. -/
def ownRecord (r : JobRingId) (tag : BitVec 16) (status : Status) (session : Byte) (value : Word32) (flags : RecordFlags)
    (t : State) : ReportRecord :=
  { body := .job r (t.jobRing r).take tag, status, session, value, flags, stamp := t.stamp }

/-- A ring after one more JOB record has taken the slot at its write index and a reserved place (R145). -/
def ReportRing.withJob (q : ReportRing) (rec : ReportRecord) : ReportRing :=
  { q with
    writeIndex := if q.writeIndex + 1 = q.size then 0 else q.writeIndex + 1
    lap := if q.writeIndex + 1 = q.size then !q.lap else q.lap
    outstanding := q.outstanding + 1
    reservations := q.reservations - 1
    unwritten := q.unwritten ++ [{ slot := q.writeIndex, lap := q.lap, record := rec, owner := none }] }

/-- A ring after the JOB records of a list have been handed to the Report Writer in order: an OPEN ring places those that
are for it, any other discards them (R145, R154). -/
def handedRing (recs : List (ReportRingId × ReportRecord)) (id : ReportRingId) (q : ReportRing) : ReportRing :=
  if q.state = .opened then
    ((recs.filter (fun x => decide (x.1 = id))).map Prod.snd).foldl ReportRing.withJob q
  else q

/-- The report rings of `u` are those of `t` after the JOB records of the list have been handed over in order. -/
def Handed (recs : List (ReportRingId × ReportRecord)) (t u : State) : Prop :=
  ∀ id, u.reportRing id = handedRing recs id (t.reportRing id)

/-- The job rings of `u` are those of `t`, but for ring `r`, which a refusal halts when its halt flag is set (R139). -/
def HaltedBy (status : Status) (r : JobRingId) (t u : State) : Prop :=
  ∀ j, u.jobRing j =
    if j = r ∧ status.cls = .refusal ∧ (t.jobRing r).haltFlag = true ∧ (t.jobRing r).state = .running then
      { t.jobRing r with state := .halted }
    else t.jobRing j

/-- The job of ring `r` with this tag is answered by one JOB record, with these fields, to the ring's bound report ring
(R136, R145), and halts the ring if it is a refusal (R139). -/
def Answered (r : JobRingId) (tag : BitVec 16) (status : Status) (session : Byte) (value : Word32) (flags : RecordFlags)
    (t u : State) : Prop :=
  Handed [((t.jobRing r).bound, ownRecord r tag status session value flags t)] t u ∧ HaltedBy status r t u

/-- Nothing but job rings and report rings differs. -/
def OnlyRings (t u : State) : Prop := u = { t with jobRings := u.jobRings, reportRings := u.reportRings }

/-- Nothing but session entries, job rings and report rings differs: the queue, the registers, the stamp clock, the
lines, the waits, the arbiter, the fetches and every byte of host memory are the same. -/
def OnlyTables (t u : State) : Prop :=
  u = { t with sessions := u.sessions, jobRings := u.jobRings, reportRings := u.reportRings }

/-- Nothing but wait entries, session entries, job rings and report rings differs. -/
def OnlyTablesAndWaits (t u : State) : Prop :=
  u = { t with sessions := u.sessions, jobRings := u.jobRings, reportRings := u.reportRings, waits := u.waits }

/-- Every session but one is the same. -/
def OtherSessionsKept (k : SessionId) (t u : State) : Prop := ∀ j, j ≠ k → u.session j = t.session j

/-- The command completes with a state of which this holds. -/
def Completes (o : Host.Outcome State Fault Refusal) (P : State → Prop) : Prop := ∃ u, o = .next u ∧ P u

/-- The job is refused: one JOB record with the status and the value, and nothing else changes but the halt of its ring
(R135). -/
def RefusedWith (r : JobRingId) (tag : BitVec 16) (status : Status) (session : Byte) (value : Word32) (t : State)
    (o : Host.Outcome State Fault Refusal) : Prop :=
  Completes o (fun u => status.cls = .refusal ∧ OnlyRings t u ∧ Answered r tag status session value {} t u)

/-- The wait records of a session's event: each wait of its list to which the event gives a status is answered with it,
in list order, with the given count and the stamp clock (R97, R106). -/
def waitRecords (ends : WaitEntry → Option Status) (k : SessionId) (count : Nat) (t : State) :
    List (ReportRingId × ReportRecord) :=
  (t.session k).waits.filterMap fun w =>
    (t.wait w).bind fun e =>
      (ends e).map fun status =>
        (e.reportRing,
          { body := .job e.ring (t.jobRing e.ring).take e.tag, status, session := toByte k.val,
            value := toWord count, flags := {}, stamp := t.stamp })

/-- The event gives a status to this wait. -/
def endsWait (ends : WaitEntry → Option Status) (t : State) (w : WaitId) : Bool :=
  (t.wait w).any (fun e => (ends e).isSome)

/-- The list of the session's waits that the event does not end. -/
def keptWaits (ends : WaitEntry → Option Status) (k : SessionId) (t : State) : List WaitId :=
  (t.session k).waits.filter (fun w => !endsWait ends t w)

/-- The entries that the event ends are free and the others are kept (R97, R106). -/
def WaitsEnded (ends : WaitEntry → Option Status) (k : SessionId) (t u : State) : Prop :=
  ∀ w, u.wait w = if w ∈ (t.session k).waits ∧ endsWait ends t w = true then none else t.wait w

/-- An unsolicited record of session `k` at an OPEN ring (R149): it takes the slot at the write index when the store is
empty and a place is free, else joins the store while that holds fewer than 8, else is dropped. -/
def ReportRing.withUnsolicited (q : ReportRing) (rec : ReportRecord) (owner : Option SessionId) : Option ReportRing :=
  if q.store = [] ∧ q.outstanding + q.reservations < q.size then
    some
      { q with
        writeIndex := if q.writeIndex + 1 = q.size then 0 else q.writeIndex + 1
        lap := if q.writeIndex + 1 = q.size then !q.lap else q.lap
        outstanding := q.outstanding + 1
        unwritten := q.unwritten ++ [{ slot := q.writeIndex, lap := q.lap, record := rec, owner }] }
  else if q.store.length < 8 then some { q with store := q.store ++ [rec] }
  else none

/-- The next unsolicited record of session `i` (R46, R64, R93): its sequence number and lost count as they stand. -/
def nextRecord (i : SessionId) (kind : UnsolicitedKind) (status : Status) (index value : Nat) (flags : RecordFlags)
    (s : State) : ReportRecord :=
  { body := .unsolicited kind index (s.session i).seq (s.session i).lost, status, session := BitVec.ofNat 8 i.val,
    value := toWord value, flags, stamp := s.stamp }

/-- Report ring `id`, which stood as `q`, after the record of a session entry has been offered to the session's report
ring (R149, R154). -/
def offeredRing (i : SessionId) (e : Session) (rec : ReportRecord) (id : ReportRingId) (q : ReportRing) : ReportRing :=
  if e.reportRing = some id ∧ q.state = .opened then (q.withUnsolicited rec (some i)).getD q else q

/-- The lost count of the session after the offer (R149, R151, R154): 0 when its ring has taken the record, else one more,
up to 65,535. -/
def lostAfterOffer (i : SessionId) (e : Session) (rec : ReportRecord) (rings : ReportRingId → ReportRing) : Nat :=
  if e.reportRing.any (fun id =>
      decide ((rings id).state = .opened) && ((rings id).withUnsolicited rec (some i)).isSome) then 0
  else min (e.lost + 1) 65535

/-- The active and the staged list once a moment has come: a list staged for it becomes active whole (R75, R77, R78). -/
def listsAt (moment : CommitMode) (e : Session) : List Point × Option StagedList :=
  match e.staged with
  | none => (e.active, none)
  | some st => if st.mode = moment then (st.points, none) else (e.active, some st)

/-! ### Invariants -/

/-- A list of points as R60 keeps it: at most 16, strictly ascending values, none above the limit. -/
def ListInRange (limit : Nat) (l : List Point) : Prop :=
  l.length ≤ Config.maxPoints ∧ l.Pairwise (fun p q => p.value < q.value) ∧ ∀ p ∈ l, p.value ≤ limit

/-- The ranges of a session's counts and lists (R1, R26, R28, R29, R60, R149). A FREE session has no limit, which reads
as 0. -/
def Session.InRange (e : Session) : Prop :=
  e.count ≤ e.limitValue ∧ e.wraps ≤ Config.saturation ∧ e.illegal ≤ Config.saturation ∧ e.lost ≤ Config.saturation ∧
    e.capture.value ≤ e.limitValue ∧ ListInRange e.limitValue e.active ∧
    (∀ st, e.staged = some st → ListInRange e.limitValue st.points ∧ st.mode ≠ .now)

/-- Every session is in range, and every point fetch reads at most 16 points (R1, R69). -/
def State.InRange (s : State) : Prop :=
  (∀ k, (s.session k).InRange) ∧ ∀ f ∈ s.fetches, f.points ≤ Config.maxPoints

/-- A report ring as every event leaves it: at most 8 parked records (R149), none parked while an OPEN ring has free
space (R150), nothing held in an ABSENT entry (log 22), and the indices of any other ring inside it (R143). -/
def ReportRing.Sound (q : ReportRing) : Prop :=
  q.store.length ≤ Config.maxStore ∧ (q.state = .opened → q.store ≠ [] → q.freeSpace = 0) ∧
    (q.state = .absent → q = {}) ∧ (q.state ≠ .absent → q.writeIndex < q.size ∧ q.releaseIndex < q.size)

/-- Every report ring is sound. -/
def State.RingsSound (s : State) : Prop := ∀ q, (s.reportRing q).Sound

/-- The wait lists and the pool agree (R96, R97): an entry is outstanding exactly when it is in the list of the session
it names, no list names an entry twice or holds more than 8, and a FREE session has none. -/
def State.WaitsAgree (s : State) : Prop :=
  (∀ k w, w ∈ (s.session k).waits ↔ ∃ e, s.wait w = some e ∧ e.session = k) ∧
    (∀ k, (s.session k).waits.Nodup ∧ (s.session k).waits.length ≤ Config.maxSessionWaits) ∧
    ∀ k, (s.session k).state = .free → (s.session k).waits = []

/-- The pacing relation (R88): a session that has a pacer has no followers, no pacer has more than 8, and every
follower in a list names that pacer as its own. The marks still out of one event are for followers of the pacer, in list
order (R58, R91). -/
def State.PacingSound (s : State) : Prop :=
  (∀ k, (s.session k).pacer.isSome = true → (s.session k).followers = []) ∧
    (∀ k, (s.session k).followers.length ≤ Config.maxFollowers ∧ (s.session k).followers.Nodup) ∧
    (∀ k f, f ∈ (s.session k).followers → (s.session f).pacer = some k) ∧
    ∀ k, ∀ g ∈ (s.session k).marksOut, g ≠ [] ∧ g.Sublist (s.session k).followers

/-- A FREE entry holds in every field its value when FREE (R1). -/
def State.FreeEntriesEmpty (s : State) : Prop := ∀ k, (s.session k).state = .free → s.session k = {}

/-- Every record of a session that a report ring holds, parked or not yet written, belongs to a session that reports to
that ring (R149). -/
def State.RecordsOwned (s : State) : Prop :=
  ∀ q k,
    ((∃ rec ∈ (s.reportRing q).store, rec.sessionOf = some k) ∨ (∃ p ∈ (s.reportRing q).unwritten, p.owner = some k)) →
      (s.session k).reportRing = some q

/-- A point fetch that is neither void nor of a dropped ring is for a session that is not FREE (R18, R70). -/
def State.FetchesLive (s : State) : Prop :=
  ∀ f ∈ s.fetches, f.isVoid = false → f.orphan = false → (s.session f.session).state ≠ .free

/-- FREE entries are empty, the pacing relation holds, and held records and fetches have their sessions (R1, R18, R88,
R149). -/
def State.TablesAgree (s : State) : Prop := s.FreeEntriesEmpty ∧ s.PacingSound ∧ s.RecordsOwned ∧ s.FetchesLive

/-- The device-wide fields: the turn is a work ring (R129), FATAL of cause CONFIG comes with RUN 0 (R173), and each
filter width is 2 to 255 (R113). -/
def State.DeviceSound (s : State) : Prop :=
  s.turn ≠ 0 ∧ (s.fatalCause = .config → s.run = false) ∧
    ∀ l, 2 ≤ (s.line l).width ∧ (s.line l).width ≤ 255 ∧ (s.line l).runCount ≤ 254

/-- The places of a report ring that jobs still hold: the job of the take in progress, the outstanding waits and the
point fetches of rings that are there (R131). -/
def State.placesHeld (s : State) (q : ReportRingId) : Nat :=
  (if s.taking.any (fun t => decide ((s.jobRing t.ring).bound = q)) then 1 else 0)
    + allWaits.countP (fun w => (s.wait w).any (fun e => decide (e.reportRing = q)))
    + s.fetches.countP (fun f => !f.orphan && decide (f.reportRing = q))

/-- Every unanswered job belongs to a ring that is there: a wait to the ring that owns its session, a fetch to a ring
whose mark is set, a take to a ring without a fetch, and a drop that waits has no job ring left; and its place is on the
ring's bound report ring, which is not ABSENT; a record is read at its ring's take index; and JR0 and no other ring is
bound to RR0 (R4, R70, R96, R125, R130, R138, R140, R170). -/
def State.JobsBelong (s : State) : Prop :=
  (∀ w e, s.wait w = some e →
      (s.session e.session).owner = some e.ring ∧ (s.jobRing e.ring).state ≠ .absent ∧
        (s.jobRing e.ring).bound = e.reportRing) ∧
    (∀ f ∈ s.fetches, f.orphan = false →
      (s.jobRing f.ring).state ≠ .absent ∧ (s.jobRing f.ring).bound = f.reportRing ∧
        (s.jobRing f.ring).fetchInFlight = true) ∧
    ((s.fetches.filter (fun f => !f.orphan)).map PointFetch.ring).Nodup ∧
    (∀ t, s.taking = some t →
      (s.jobRing t.ring).state ≠ .absent ∧ (s.jobRing t.ring).fetchInFlight = false ∧
        (∀ address, t.stage = .reading address → address = (s.jobRing t.ring).recordAddress) ∧
        ∀ q tag, t.stage = .dropping q tag →
          t.ring = 0 ∧ ∀ j, (s.jobRing j).state ≠ .absent → (s.jobRing j).bound ≠ q) ∧
    (∀ j, (s.jobRing j).state ≠ .absent → (s.reportRing (s.jobRing j).bound).state ≠ .absent) ∧
    ∀ j, (s.jobRing j).state ≠ .absent → ((s.jobRing j).bound = 0 ↔ j = 0)

/-- Outstanding records plus reservations never exceed the size of an OPEN ring (R148), with what keeps it so: every
unanswered job of an OPEN ring still has its place. -/
def State.PlacesSound (s : State) : Prop :=
  s.WaitsAgree ∧ s.JobsBelong ∧
    ∀ q, (s.reportRing q).state = .opened →
      (s.reportRing q).outstanding + (s.reportRing q).reservations ≤ (s.reportRing q).size ∧
        s.placesHeld q ≤ (s.reportRing q).reservations

end Sys2Proof.Machine
end

