-- ==== Sys2Proof/Certificates/Slice0/Obligations.lean ====
section
/-!
DEFINITION. The statements for the provers. Each docstring names the rules of spec/ it rests on; a clause that rests on a
choice of the model names its log entry.
-/

open Sys2Proof Sys2Proof.Machine

/-! ### The queue, reset and the invariants -/

/-- A step runs the command at the front of the queue on the state with the queue's rest; with none waiting the part
idles (log 6). -/
def Obligations.StepRunsFrontCommand : Prop :=
  (∀ (c : Instr) (rest : List Instr) (s : State), s.pending = c :: rest → step s = exec c { s with pending := rest }) ∧
    ∀ s : State, s.pending = [] → step s = .next s

/-- Every command answers a next state: no command ends in a fault or a refusal, read from the spec's giving each an
effect in every state or calling it ignored (log 29). The effect leaves the queue alone, a hardware reset's too, since the
queue is the senders' and not the part's (log 27). -/
def Obligations.EveryCommandCompletes : Prop :=
  ∀ (c : Instr) (s : State), Completes (exec c s) (fun u => u.pending = s.pending)

/-- The values of a hardware reset in force (R169 with R1, R96, R113, R118, R125, R129, R143, R158, R168). The accepted
raw levels and the fields of ABSENT entries are the model's (log 5, log 22). -/
def Obligations.ResetValues : Prop :=
  let s := State.reset
  s.phase = .hardwareReset ∧ s.run = false ∧ s.intEnable = false ∧ s.fatalCause = .none ∧ s.badIndex = false ∧
    s.crBaseLo = 0 ∧ s.crBaseHi = 0 ∧ s.crJr0Size = 0 ∧ s.crRr0Size = 0 ∧ s.intPending = 0 ∧ s.stamp = 0 ∧
    (∀ k, s.session k = {}) ∧ (∀ w, s.wait w = none) ∧
    (∀ l, (s.line l).inverted = false ∧ (s.line l).width = 4 ∧ (s.line l).runCount = 0) ∧
    (∀ l, (s.output l).owner = none ∧ (s.output l).level = false ∧ (s.output l).timer = none ∧ s.driven l = false) ∧
    (∀ j, (s.jobRing j).state = .absent) ∧ (∀ q, (s.reportRing q).state = .absent) ∧ s.turn = 7 ∧ s.turnLeft = 0 ∧
    s.taking = none ∧ s.fetches = [] ∧ s.rr0Lost = 0 ∧ s.intN = false

/-- The state after reset meets every invariant stated below; and the figures in them: 16 points of a list, 8 waits of a
session, 8 followers of a pacer, 8 parked records, and counters that saturate at 65,535 (R26, R29, R60, R88, R96, R149). -/
def Obligations.ResetMeetsInvariants : Prop :=
  State.reset.InRange ∧ State.reset.RingsSound ∧ State.reset.WaitsAgree ∧ State.reset.TablesAgree ∧
    State.reset.PlacesSound ∧ State.reset.DeviceSound ∧ State.reset.hostMemory.wf = true ∧ Config.maxPoints = 16 ∧
    Config.maxSessionWaits = 8 ∧ Config.maxFollowers = 8 ∧ Config.maxStore = 8 ∧ Config.saturation = 65535

/-- Every step keeps every count between 0 and its limit, every saturating counter at or below 65,535, and every point
list ascending, at most 16 long and within the limit (R1, R28, R29, R60). -/
def Obligations.SessionsStayInRange : Prop :=
  ∀ s t : State, s.InRange → step s = .next t → t.InRange

/-- Every step keeps every pending store at 8 records or fewer, and leaves no record parked in an OPEN ring that has free
space (R149, R150). -/
def Obligations.ParkedRecordsMeanFullRing : Prop :=
  ∀ s t : State, s.RingsSound → step s = .next t → t.RingsSound

/-- Every step keeps the wait lists and the pool in agreement (R96, R97). -/
def Obligations.WaitListsAndPoolAgree : Prop :=
  ∀ s t : State, s.WaitsAgree → step s = .next t → t.WaitsAgree

/-- Every step keeps FREE entries at their values when FREE, the pacing relation with the marks still out (log 10), every
held record with a session that reports to its ring, and every live fetch with a session that is not FREE (R1, R18, R58,
R88, R149). -/
def Obligations.PacingAndFreeEntriesKept : Prop :=
  ∀ s t : State, s.TablesAgree → step s = .next t → t.TablesAgree

/-- Every step keeps outstanding records plus reservations within the size of every OPEN report ring, a place for every
job not yet answered, JR0 and no other job ring bound to RR0, and a record read at its ring's take index (R125, R130, R131,
R148). -/
def Obligations.OpenRingsNeverOverfull : Prop :=
  ∀ s t : State, s.PlacesSound → step s = .next t → t.PlacesSound

/-- Every step keeps the turn at a work ring, RUN at 0 in FATAL of cause CONFIG, each filter within its range, and the
model's list of written bytes canonical, which is addresses strictly rising, so that a read finds what is listed (R113, R129,
R173; log 18). -/
def Obligations.DeviceFieldsStaySound : Prop :=
  (∀ m : Memory,
    (m.wf = true ↔ m.Pairwise (fun x y => x.1 < y.1)) ∧
      (m.wf = true → ∀ a b, m.read a = some b ↔ (a, b) ∈ m)) ∧
  (∀ s t : State, s.DeviceSound → step s = .next t → t.DeviceSound) ∧
    ∀ s t : State, s.hostMemory.wf = true → step s = .next t → t.hostMemory.wf = true

/-! ### Window ends -/

namespace Sys2Proof.Machine

/-- The WINDOWS waits that a window end meets: those with one window end to come (R104). -/
def windowEnds (e : WaitEntry) : Option Status :=
  match e.cond with
  | .windows _ left => if left ≤ 1 then some .success else none
  | .reach _ _ | .atLeast _ | .atMost _ | .idle => none

/-- A window end, whole (R45, R46, R58, R78, R104): the SAMPLE of the ending window, where the mode and source post one;
in RATE and INTERVAL the count is 0 and the next window begins, in SPAN the count stays and none is in progress; an
AT_WINDOW list commits; one mark goes out to each follower, in list order (log 10); each WINDOWS wait has one window end
less to come, and one at its last is answered with the count as the window end has left it. That the flags of a SPAN
session are clear from then on is the model's choice (log 23). -/
def EndsAWindow (i : SessionId) (s u : State) : Prop :=
  let e := s.session i
  let timed := e.mode ≠ some .span
  let silent := e.mode = some .interval ∧ e.windowSource = some .own ∧ e.reportWindows = false
  let count := if timed then 0 else e.count
  let lists := listsAt .atWindow e
  let sample := nextRecord i .sample .success 0
    (if e.mode = some .interval ∧ e.windowSource = some .own then e.windowLength.getD 0 else e.count)
    { isPartial := e.partialFlag, wrapped := e.wrappedFlag } s
  u = { s with sessions := u.sessions, waits := u.waits, reportRings := u.reportRings } ∧ OtherSessionsKept i s u ∧
    u.session i =
      { e with
        count := count, windowOpen := decide timed, elapsed := 0, wrappedFlag := false
        partialFlag := decide (timed ∧ e.hold ≠ {}), windowEndDue := false
        active := lists.1, staged := lists.2
        marksOut := if e.followers = [] then e.marksOut else e.marksOut ++ [e.followers]
        seq := if silent then e.seq else e.seq + 1
        lost := if silent then e.lost else lostAfterOffer i e sample s.reportRing
        waits := keptWaits windowEnds i s } ∧
    (∀ x, u.wait x =
      match s.wait x with
      | none => none
      | some y =>
        match y.cond with
        | .windows n left =>
          if x ∈ e.waits then (if left ≤ 1 then none else some { y with cond := .windows n (left - 1) }) else some y
        | .reach _ _ | .atLeast _ | .atMost _ | .idle => some y) ∧
    ∀ q, u.reportRing q =
      handedRing (waitRecords windowEnds i count s) q
        (if silent then s.reportRing q else offeredRing i e sample q (s.reportRing q))

/-- The window ends that steps have noted at the sessions of a list are taken, in its order, each whole (R30, R54;
log 11). -/
def WindowEndsTaken : List SessionId → State → State → Prop
  | [], s, u => u = s
  | i :: rest, s, u =>
    ∃ v, (if (s.session i).windowEndDue = true then EndsAWindow i s v else v = s) ∧ WindowEndsTaken rest v u

end Sys2Proof.Machine

/-! ### Taking -/

/-- The six conditions of eligibility, and no take where no ring meets them or a take is in progress (R128, R130). -/
def Obligations.TakingNeedsAnEligibleRing : Prop :=
  (∀ (s : State) (r : JobRingId), s.eligible r = true ↔
      s.run = true ∧ s.fatalCause = .none ∧ (s.jobRing r).state = .running ∧
        0 < ((s.jobRing r).post + (s.jobRing r).size - (s.jobRing r).take) % (s.jobRing r).size ∧
        (s.jobRing r).fetchInFlight = false ∧ (s.reportRing (s.jobRing r).bound).state = .opened ∧
        (s.reportRing (s.jobRing r).bound).outstanding + (s.reportRing (s.jobRing r).bound).reservations <
          (s.reportRing (s.jobRing r).bound).size) ∧
    ∀ s : State, ((∃ t, s.taking = some t) ∨ ∀ r, s.eligible r = false) → exec (.jobTake none) s = .next s

namespace Sys2Proof.Machine

/-- What a choice does: one place is reserved, the read of the 32 bytes at the take index begins, and only the turn
besides is written (R130, R148). -/
def TakesFrom (r turn : JobRingId) (left : Nat) (s : State) : Prop :=
  Completes (exec (.jobTake none) s) fun u =>
    u = { s with turn := turn, turnLeft := left, reportRings := u.reportRings
                 taking := some { ring := r, stage := .reading ((s.jobRing r).base + 32 * (s.jobRing r).take) } } ∧
      ∀ q, u.reportRing q =
        if q = (s.jobRing r).bound then { s.reportRing q with reservations := (s.reportRing q).reservations + 1 }
        else s.reportRing q

end Sys2Proof.Machine

/-- JR0 first; then the holder of the turn while it has weight left; then the next eligible ring in increasing id from
the holder, wrapping, with the holder last (R129, R130). The record at the take index lies 32 bytes a slot from the base
(R130). -/
def Obligations.TakerServesTheRotation : Prop :=
  (∀ j : JobRing, j.recordAddress = j.base + 32 * j.take) ∧
  ∀ s : State, s.taking = none → s.turn ≠ 0 →
    (s.eligible 0 = true → TakesFrom 0 s.turn (if s.eligible s.turn = true then s.turnLeft else 0) s) ∧
    (s.eligible 0 = false → s.eligible s.turn = true → 1 ≤ s.turnLeft → TakesFrom s.turn s.turn (s.turnLeft - 1) s) ∧
    ∀ r : JobRingId, s.eligible 0 = false → ¬(s.eligible s.turn = true ∧ 1 ≤ s.turnLeft) → r ≠ 0 →
      s.eligible r = true →
      (∀ j : JobRingId, j ≠ 0 → s.eligible j = true → (r.val + 6 - s.turn.val) % 7 ≤ (j.val + 6 - s.turn.val) % 7) →
      TakesFrom r r ((s.jobRing r).weight - 1) s

/-- A bus error on the read of a record: the take ends with its index kept, the place returns and serves the pending
store, the ring is BROKEN, and NOTICE JR_BROKEN is offered to RR0 (R132, R149, R152). -/
def Obligations.RecordFetchErrorBreaksTheRing : Prop :=
  ∀ (s : State) (r : JobRingId), s.readsFor r →
    let bound := (s.jobRing r).bound
    let returned : ReportRingId → ReportRing := fun q =>
      if q = bound ∧ (s.reportRing q).state = .opened then
        ReportRing.drain { s.reportRing q with reservations := (s.reportRing q).reservations - 1 }
      else s.reportRing q
    let notice : ReportRecord :=
      { body := .unsolicited .notice 0 0 s.rr0Lost, status := .jrBroken, session := 255,
        value := BitVec.ofNat 32 (r.val + (s.jobRing r).take % 1024 * 2 ^ 16), flags := {}, stamp := s.stamp }
    Completes (exec .recordFetchError s) fun u =>
      u = { s with taking := none, jobRings := u.jobRings, reportRings := u.reportRings, rr0Lost := u.rr0Lost } ∧
        (∀ j, u.jobRing j = if j = r then { s.jobRing r with state := .broken } else s.jobRing j) ∧
        (∀ q, q ≠ 0 → u.reportRing q = returned q) ∧
        match (returned 0).state, (returned 0).withUnsolicited notice none with
        | .opened, some q => u.reportRing 0 = q ∧ u.rr0Lost = 0
        | .opened, none => u.reportRing 0 = returned 0 ∧ u.rr0Lost = min (s.rr0Lost + 1) 65535
        | _, _ => u.reportRing 0 = returned 0 ∧ u.rr0Lost = s.rr0Lost

namespace Sys2Proof.Machine

/-- The table of kind codes (R175). -/
def kindCodes : List (Kind × Nat) :=
  [(.openJob, 0x01), (.commitPoints, 0x08), (.closeJob, 0x02), (.hold, 0x09), (.startJob, 0x03), (.release, 0x0a),
   (.stopJob, 0x04), (.awaitJob, 0x0b), (.preset, 0x05), (.cancelWait, 0x0c), (.read, 0x06), (.outputs, 0x0d),
   (.loadPoints, 0x07), (.makeJobRing, 0x20), (.dropReportRing, 0x24), (.dropJobRing, 0x21), (.tuneReportRing, 0x25),
   (.restartJobRing, 0x22), (.lineSetup, 0x26), (.makeReportRing, 0x23)]

/-- The state in which a fetched record's own job begins: the take index of its ring is one more modulo the size and no
take is in progress (R126, R130). -/
def TakeAdvanced (r : JobRingId) (v u : State) : Prop :=
  u = { v with jobRings := u.jobRings, taking := none } ∧
    ∀ j, u.jobRing j =
      if j = r then { v.jobRing r with take := ((v.jobRing r).take + 1) % (v.jobRing r).size } else v.jobRing j

end Sys2Proof.Machine

/-- The arrival of a record: the window ends that steps have noted are taken in session order, of which there may be
none (R30, R54; log 11); then the take index of its ring is one more, modulo its size, and the take has ended, with
nothing else changed (R126, R130, R136). Its fields lie at their bytes, the byte at the lowest address least
significant, a session field of 0 to 31 names that session, and its kind is that of its code (R174, R175). It runs as
its kind's command, the JOB_TAKE that brings it being the row of its kind (log 3); with no read in flight it is not used
(log 2); and the common validation refuses it in order: kind, ring class, session number, session state, owner (R134,
R136). A control record of a work ring is answered with session 255 and a record of no kind with its session field
(log 14). -/
def Obligations.CommonValidationRefuses : Prop :=
  (∀ (s : State) (r : JobRingId),
    (s.WaitsAgree → ∃ v, WindowEndsTaken (List.finRange 32) s v ∧ TakeAdvanced r v (recordArrives r s)) ∧
      (s.settled → TakeAdvanced r s (recordArrives r s))) ∧
    (∀ (w : JobRecord) (n : Nat),
      w.kindCode = w.extractLsb' 0 8 ∧ (n < 8 → w.flag n = w.getLsbD (8 + n)) ∧ w.tag = w.extractLsb' 16 16 ∧
        w.session = w.extractLsb' 32 8 ∧ w.byte n = w.extractLsb' (8 * n) 8 ∧ w.half n = w.extractLsb' (8 * n) 16 ∧
        w.word n = w.extractLsb' (8 * n) 32 ∧ w.quad n = w.extractLsb' (8 * n) 64) ∧
    (∀ (b : Byte) (k : SessionId), sessionOf b = some k ↔ b.toNat = k.val) ∧
    (∀ (k : Kind) (code : Byte), Kind.ofCode code = some k ↔ (k, code.toNat) ∈ kindCodes) ∧
    (∀ (w : JobRecord) (s : State), (∀ r, ¬ s.readsFor r) → exec (.jobTake (some w)) s = .next s) ∧
    (∀ (w : JobRecord) (s : State) (k : Kind), Kind.ofCode w.kindCode = some k →
      exec (.jobTake (some w)) s = exec (k.command w) s) ∧
    ∀ (w : JobRecord) (s : State) (r : JobRingId), s.readsFor r →
      let t := recordArrives r s
      (Kind.ofCode w.kindCode = none → RefusedWith r w.tag .badKind w.session 0 t (exec (.jobTake (some w)) s)) ∧
        ∀ k : Kind,
          (k.isControl = true → r ≠ 0 → RefusedWith r w.tag .wrongRing 255 0 t (exec (k.command w) s)) ∧
          (k.isControl = false → r = 0 → RefusedWith r w.tag .wrongRing w.session 0 t (exec (k.command w) s)) ∧
          (k.isControl = false → r ≠ 0 → 32 ≤ w.session.toNat → ¬(k = .openJob ∧ w.session = 255) →
            RefusedWith r w.tag .badSession w.session 0 t (exec (k.command w) s)) ∧
          ∀ i : SessionId, k.isControl = false → k ≠ .openJob → r ≠ 0 → w.session.toNat = i.val →
            ((t.session i).state = .free → RefusedWith r w.tag .wrongState w.session 0 t (exec (k.command w) s)) ∧
            ((t.session i).state ≠ .free → (t.session i).owner ≠ some r →
              RefusedWith r w.tag .notOwner w.session 0 t (exec (k.command w) s))

/-! ### OPEN, CLOSE, START, STOP -/

/-- The parameters that OPEN accepts, mode by mode; every other setting is BAD_PARAM (R7, R176). -/
def Obligations.OpenParameterRanges : Prop :=
  ∀ w : JobRecord,
    let mode := (w.byte 9).toNat
    let a := (w.byte 10).toNat
    let b := (w.byte 11).toNat
    let inhibit := (w.byte 12).toNat
    let source := (w.byte 21).toNat
    let limit := (w.word 16).toNat
    let length := (w.word 24).toNat
    ((openSetup w).isSome = true ↔
      mode ≤ 5 ∧ 1 ≤ limit ∧ (mode ≠ 5 → a < 16) ∧ (mode = 1 ∨ mode = 2 → b < 16 ∧ b ≠ a) ∧
        (mode = 0 ∨ mode = 3 → (w.byte 13).toNat ≤ 2) ∧
        (mode = 1 → (w.byte 14).toNat ≤ 2 ∧ (w.byte 15).toNat ≤ 1) ∧
        (mode = 4 ∨ mode = 5 ∨ (mode = 3 ∧ source = 0) → (w.byte 20).toNat ≤ 4) ∧
        (mode = 3 ∨ mode = 5 → source ≤ 1 ∧ (source = 0 → 1 ≤ length ∧ length ≤ 16777215) ∧
          (source = 1 → (w.byte 22).toNat < 32)) ∧
        (mode = 5 → source = 0 → length ≤ limit) ∧
        (inhibit ≠ 255 → inhibit < 16 ∧ (mode ≠ 5 → inhibit ≠ a) ∧ (mode = 1 ∨ mode = 2 → inhibit ≠ b)) ∧
        ((w.byte 23) ≠ 0 → (w.half 28).toNat ≠ 0))

namespace Sys2Proof.Machine

/-- The selection of OPEN (R6): the id given, or with 255 the lowest-numbered FREE session. -/
def Selects (w : JobRecord) (t : State) (k : SessionId) : Prop :=
  (t.session k).state = .free ∧
    (w.session.toNat = k.val ∨ (w.session = 255 ∧ ∀ j, j < k → (t.session j).state ≠ .free))

/-- A pacer that OPEN refuses with BOUND (R8). -/
def PacerUnfit (t : State) (p : SessionId) : Prop :=
  (t.session p).state = .free ∨ (t.session p).pacer ≠ none ∨ 8 ≤ (t.session p).followers.length

end Sys2Proof.Machine

/-- The refusals of OPEN after the common validation, in the order of R6 to R8, each leaving everything as it was. -/
def Obligations.OpenRefusalsInOrder : Prop :=
  ∀ (w : JobRecord) (s : State) (r : JobRingId), s.readsFor r → r ≠ 0 →
    let t := recordArrives r s
    let o := exec (.openJob w) s
    let ring := (w.byte 8).toNat
    (∀ k : SessionId, w.session.toNat = k.val → (t.session k).state ≠ .free →
      RefusedWith r w.tag .sessionTaken w.session 0 t o) ∧
    (w.session = 255 → (∀ k, (t.session k).state ≠ .free) → RefusedWith r w.tag .noSession w.session 0 t o) ∧
    ∀ k, Selects w t k →
      (openSetup w = none → RefusedWith r w.tag .badParam w.session 0 t o) ∧
      ∀ setup, openSetup w = some setup →
        (8 ≤ ring → RefusedWith r w.tag .badParam w.session 0 t o) ∧
        ∀ q : ReportRingId, ring = q.val →
          ((t.reportRing q).state ≠ .opened → RefusedWith r w.tag .noRing w.session 0 t o) ∧
          ((t.reportRing q).state = .opened →
            (∀ p, setup.pacer = some p → PacerUnfit t p →
              RefusedWith r w.tag .bound w.session (toWord p.val) t o) ∧
            (∀ p, setup.pacer = some p → ¬PacerUnfit t p → (t.session p).owner ≠ some r →
              RefusedWith r w.tag .notOwner w.session (toWord p.val) t o) ∧
            ∀ l : OutputId, (∀ p, setup.pacer = some p → ¬PacerUnfit t p ∧ (t.session p).owner = some r) →
              (w.byte 23).getLsbD l.val = true → (t.output l).owner ≠ none →
              (∀ m : OutputId, m < l → (w.byte 23).getLsbD m.val = true → (t.output m).owner = none) →
              RefusedWith r w.tag .outputTaken w.session (toWord l.val) t o)

namespace Sys2Proof.Machine

/-- The entry that an OPEN record asks for: each parameter of its mode from its bytes, one that the mode ignores absent,
and every other field at its first value (R7, R9, R176). -/
def AskedSetup (w : JobRecord) (e : Session) : Prop :=
  let mode := (w.byte 9).toNat
  let windowed := mode = 3 ∨ mode = 5
  let own := windowed ∧ w.byte 21 = 0
  let paced := windowed ∧ w.byte 21 = 1
  e = { mode := e.mode, lineA := e.lineA, lineB := e.lineB, inhibitLine := e.inhibitLine, edgeSelect := e.edgeSelect,
        resolution := e.resolution, policy := e.policy, limit := e.limit, tick := e.tick, windowSource := e.windowSource,
        windowLength := e.windowLength, reportWindows := e.reportWindows, pacer := e.pacer, claims := e.claims,
        pulseWidth := e.pulseWidth } ∧
    e.mode = [Mode.tally, .quad, .split, .rate, .span, .interval][mode]? ∧
    e.lineA.map Fin.val = (if mode = 5 then none else some (w.byte 10).toNat) ∧
    e.lineB.map Fin.val = (if mode = 1 ∨ mode = 2 then some (w.byte 11).toNat else none) ∧
    e.inhibitLine.map Fin.val = (if w.byte 12 = 255 then none else some (w.byte 12).toNat) ∧
    e.edgeSelect = (if mode = 0 ∨ mode = 3 then [EdgeSelect.rising, .falling, .both][(w.byte 13).toNat]? else none) ∧
    e.resolution = (if mode = 1 then [Resolution.x1, .x2, .x4][(w.byte 14).toNat]? else none) ∧
    e.policy = (if mode = 1 then [StepPolicy.tallyOnly, .fault][(w.byte 15).toNat]? else none) ∧
    e.limit = some (w.word 16).toNat ∧
    e.tick =
      (if mode = 4 ∨ mode = 5 ∨ own then [TickRate.ns10, .ns100, .us1, .us10, .us100][(w.byte 20).toNat]? else none) ∧
    e.windowSource = (if own then some .own else if paced then some .pacer else none) ∧
    e.windowLength = (if own then some (w.word 24).toNat else none) ∧
    e.pacer.map Fin.val = (if paced then some (w.byte 22).toNat else none) ∧
    e.reportWindows = (decide (mode = 5 ∧ w.byte 21 = 0) && w.flag 1) ∧ e.claims = w.byte 23 ∧
    e.pulseWidth = (if w.byte 23 = 0 then none else some (w.half 28).toNat)

end Sys2Proof.Machine

/-- OPEN configures the session it selects: owner, report ring, the parameters of its mode from the record's bytes with
those that the mode ignores absent, every result at its first value, INHIBIT from the level of its line, the pair
reference, its claims at logical low, and its place at the tail of its pacer's list; it is answered with SUCCESS and the
session's id (R6, R7, R9, R119, R176). -/
def Obligations.OpenConfiguresTheSession : Prop :=
  ∀ (w : JobRecord) (s : State) (r : JobRingId) (k : SessionId) (q : ReportRingId) (setup : Session),
    s.readsFor r → r ≠ 0 →
    let t := recordArrives r s
    Selects w t k → openSetup w = some setup → (w.byte 8).toNat = q.val → (t.reportRing q).state = .opened →
    (∀ p, setup.pacer = some p → ¬PacerUnfit t p ∧ (t.session p).owner = some r) →
    (∀ l : OutputId, (w.byte 23).getLsbD l.val = true → (t.output l).owner = none) →
    Completes (exec (.openJob w) s) fun u =>
      u = { t with sessions := u.sessions, outputs := u.outputs, jobRings := u.jobRings, reportRings := u.reportRings } ∧
        u.session k =
          { setup with
            state := .idle, owner := some r, reportRing := some q
            hold := { inhibit := match setup.inhibitLine with | none => false | some l => t.level l }
            pairRef :=
              match setup.mode, setup.lineA, setup.lineB with
              | some .quad, some a, some b => some (t.level a, t.level b)
              | _, _, _ => none
            outputsEnabled := w.flag 0 } ∧
        (∀ j, j ≠ k → u.session j =
          if setup.pacer = some j then { t.session j with followers := (t.session j).followers ++ [k] }
          else t.session j) ∧
        (∀ l : OutputId, u.output l =
          if (w.byte 23).getLsbD l.val = true then { owner := some k, level := false, timer := none } else t.output l) ∧
        AskedSetup w setup ∧ Answered r w.tag .success (BitVec.ofNat 8 k.val) (toWord k.val) {} t u

namespace Sys2Proof.Machine

/-- What becomes of an IDLE wait and of the others when a session enters IDLE (R105, R108). -/
def idleEnds (other : Status) (e : WaitEntry) : Option Status :=
  if e.cond = .idle then some .success else some other

end Sys2Proof.Machine

namespace Sys2Proof.Machine

/-- What a close does to the tables (R16, steps 2 and 4 to 7): the entry is FREE, the session has left its pacer's list
with the marks handed to it void (R91), its outputs are released and its fetch is void. -/
def Leaves (k : SessionId) (v u : State) : Prop :=
  u.session k = {} ∧
    (∀ j, j ≠ k → u.session j =
      if (v.session k).pacer = some j then
        { v.session j with
          followers := (v.session j).followers.erase k
          marksOut := ((v.session j).marksOut.map (fun g => g.filter (· ≠ k))).filter (· ≠ []) }
      else v.session j) ∧
    (∀ l, u.output l = if (v.output l).owner = some k then {} else v.output l) ∧
    u.fetches = v.fetches.map (fun f => if f.session = k then { f with isVoid := true } else f)

/-- The session that a parked record belongs to, whose lost count a failed write of it raises (R17, R153): the one that its
session field names. -/
def namedSession (rec : ReportRecord) : Option SessionId :=
  match rec.body with
  | .job _ _ _ => none
  | .unsolicited _ _ _ _ => (List.finRange 32).find? (fun k => decide (rec.session.toNat = k.val))

/-- A report ring without the parked records of a session (R17). A record that is placed stays; that a failed write of it
no longer finds an owner is the model's (log 16). -/
def purged (k : SessionId) (e : Session) (id : ReportRingId) (q : ReportRing) : ReportRing :=
  if e.reportRing = some id then
    { q with
      store := q.store.filter (fun rec => decide (namedSession rec ≠ some k))
      unwritten := q.unwritten.map (fun x => if x.owner = some k then { x with owner := none } else x) }
  else q

/-- A close with reports of a session without followers, and the CLOSE job's own record (R15, R16, R17). -/
def ClosedWith (k : SessionId) (own : ReportRingId × ReportRecord) (v u : State) : Prop :=
  let e := v.session k
  let ends : WaitEntry → Option Status := fun _ => some .sessionClosed
  u = { v with sessions := u.sessions, waits := u.waits, outputs := u.outputs, fetches := u.fetches,
               jobRings := u.jobRings, reportRings := u.reportRings } ∧
    Leaves k v u ∧ WaitsEnded ends k v u ∧ (∀ x, u.wait x = none ∨ ∃ y, u.wait x = some y ∧ y.session ≠ k) ∧
    ∀ q, u.reportRing q =
      handedRing [own] q (purged k e q (handedRing (waitRecords ends k e.count v) q (v.reportRing q)))

/-- Followers of a list each take the oldest mark handed to them, in its order. -/
def MarksTaken : List SessionId → State → State → Prop
  | [], s, u => u = s
  | f :: rest, s, u => ∃ v, exec (.paceMark f) s = .next v ∧ MarksTaken rest v u

/-- The release of a follower from its closed pacer (R92, R93): IDLE if it was ACTIVE, its window discarded, no PACER and
no pacer; its waits complete with SUCCESS or PACER_LOST; then a NOTICE PACER_LOST with the pacer's id. -/
def Released (p f : SessionId) (v u : State) : Prop :=
  let e := v.session f
  let ends := idleEnds .pacerLost
  let waits := waitRecords ends f e.count v
  let notice := nextRecord f .notice .pacerLost 0 p.val {} v
  let discard := decide (e.state = .active)
  u = { v with sessions := u.sessions, waits := u.waits, reportRings := u.reportRings } ∧
    u.session f =
      { e with
        state := if discard then .idle else e.state
        windowOpen := e.windowOpen && !discard, elapsed := if discard then 0 else e.elapsed
        partialFlag := e.partialFlag && !discard, wrappedFlag := e.wrappedFlag && !discard
        hold := { e.hold with pacer := false }, pacer := none, waits := [], seq := e.seq + 1
        lost := lostAfterOffer f e notice (fun q => handedRing waits q (v.reportRing q)) } ∧
    u.session p = { v.session p with followers := (v.session p).followers.erase f } ∧
    (∀ j, j ≠ f → j ≠ p → u.session j = v.session j) ∧ WaitsEnded ends f v u ∧
    ∀ q, u.reportRing q = offeredRing f e notice q (handedRing waits q (v.reportRing q))

/-- The followers of a list are released from a pacer, in its order, each release whole before the next (R92). -/
def ReleasedInOrder (p : SessionId) : List SessionId → State → State → Prop
  | [], s, u => u = s
  | f :: rest, s, u => ∃ v, Released p f s v ∧ ReleasedInOrder p rest v u

end Sys2Proof.Machine

/-- CLOSE of a session without followers: its waits complete SESSION_CLOSED in list order, its fetch is void, its outputs
are released, its parked records are purged, its entry is FREE, and its own record comes last (R15, R16, R17). A failed
write of a record of the session that is placed already raises no lost count (log 16). -/
def Obligations.CloseFreesTheSession : Prop :=
  ∀ (w : JobRecord) (s : State) (r : JobRingId) (k : SessionId), JobReaches w r k s → s.WaitsAgree → s.TablesAgree →
    let t := recordArrives r s
    (t.session k).followers = [] →
    Completes (exec (.closeJob w) s) fun u =>
      ClosedWith k ((t.jobRing r).bound, ownRecord r w.tag .success w.session 0 {} t) t u ∧ HaltedBy .success r t u

/-- CLOSE of a pacer: refused with BOUND and the number of its followers unless FORCE is set. With FORCE its followers
take the marks already handed to them (R89; log 10); each is then released in list order, with its wait records and its
NOTICE; the session is closed; and CLOSE's own record, with the number of followers released, comes last (R15, R16, R17,
R92, R93). A failed write of a record of the session that is placed already raises no lost count (log 16). -/
def Obligations.CloseOfAPacer : Prop :=
  ∀ (w : JobRecord) (s : State) (r : JobRingId) (k : SessionId), JobReaches w r k s →
    s.WaitsAgree → s.TablesAgree →
    let t := recordArrives r s
    let followers := (t.session k).followers
    let own := ((t.jobRing r).bound, ownRecord r w.tag .success w.session (toWord followers.length) {} t)
    followers ≠ [] →
    (w.flag 0 = false →
      RefusedWith r w.tag .bound w.session (toWord followers.length) t (exec (.closeJob w) s)) ∧
    (w.flag 0 = true → Completes (exec (.closeJob w) s) fun u =>
      ∃ marked released, MarksTaken (t.session k).marksOut.flatten t marked ∧
        ReleasedInOrder k followers marked released ∧ ClosedWith k own released u ∧ HaltedBy .success r t u ∧
        u.session k = {} ∧ u.stamp = t.stamp ∧ u.hostMemory = t.hostMemory ∧
        (∀ l, u.output l = if (t.output l).owner = some k then {} else t.output l) ∧
        (∀ j, j ≠ k → j ∉ followers → u.session j = t.session j) ∧
        ∀ f ∈ followers, (u.session f).pacer = none ∧ (u.session f).state ≠ .active ∧ (u.session f).waits = [])

/-- START: refused with WRONG_STATE outside IDLE and with BAD_PARAM after the loss of the pacer; otherwise ACTIVE, PACER
for a follower, and the setup of the mode: RATE counts from 0, an OWN window begins at once, QUAD takes its pair
reference (R5, R10, R24, R44, R47, R50, R54, R56). -/
def Obligations.StartBeginsMeasuring : Prop :=
  ∀ (w : JobRecord) (s : State) (r : JobRingId) (k : SessionId), JobReaches w r k s →
    let t := recordArrives r s
    let e := t.session k
    let o := exec (.startJob w) s
    let joins := e.pacer.isSome && !e.hold.pacer
    let hold := { e.hold with pacer := e.hold.pacer || e.pacer.isSome }
    let begins := (e.mode = some .rate ∨ e.mode = some .interval) ∧ e.windowSource = some .own
    (e.state ≠ .idle → RefusedWith r w.tag .wrongState w.session 0 t o) ∧
    (e.state = .idle → e.windowSource = some .pacer → e.pacer = none →
      RefusedWith r w.tag .badParam w.session 0 t o) ∧
    (e.state = .idle → ¬(e.windowSource = some .pacer ∧ e.pacer = none) →
      Completes o fun u =>
        OnlyTables t u ∧ OtherSessionsKept k t u ∧
          u.session k =
            { e with
              state := .active
              hold := hold
              count := if e.mode = some .rate then 0 else e.count
              pairRef :=
                if e.mode = some .quad then
                  match e.lineA, e.lineB with
                  | some a, some b => some (t.level a, t.level b)
                  | _, _ => none
                else e.pairRef
              windowOpen := if begins then true else e.windowOpen
              elapsed := if begins then 0 else e.elapsed
              partialFlag := if begins then decide (hold ≠ {}) else e.partialFlag || (joins && e.windowOpen)
              wrappedFlag := if begins then false else e.wrappedFlag } ∧
          Answered r w.tag .success w.session (toWord (u.session k).count) {} t u)

/-- STOP: in IDLE nothing changes; in ACTIVE and FAULTED the window is discarded, the session is IDLE, its waits complete
in list order, IDLE waits with SUCCESS and the others with SESSION_STOPPED, and STOP's own record comes last (R5, R11). -/
def Obligations.StopEndsMeasuring : Prop :=
  ∀ (w : JobRecord) (s : State) (r : JobRingId) (k : SessionId), JobReaches w r k s → s.WaitsAgree →
    let t := recordArrives r s
    let e := t.session k
    let ends := idleEnds .sessionStopped
    let own := ((t.jobRing r).bound, ownRecord r w.tag .success w.session (toWord e.count) {} t)
    (e.state = .idle → Completes (exec (.stopJob w) s) fun u =>
      OnlyRings t u ∧ Answered r w.tag .success w.session (toWord e.count) {} t u) ∧
    (e.state ≠ .idle → Completes (exec (.stopJob w) s) fun u =>
      OnlyTablesAndWaits t u ∧ OtherSessionsKept k t u ∧
        u.session k =
          { e with state := .idle, windowOpen := false, elapsed := 0, partialFlag := false, wrappedFlag := false,
                   faultCause := none, waits := [] } ∧
        WaitsEnded ends k t u ∧ Handed (waitRecords ends k e.count t ++ [own]) t u ∧ HaltedBy .success r t u)

/-! ### PRESET, READ, the lists, holds -/

namespace Sys2Proof.Machine

/-- The AT_LEAST and AT_MOST waits that a change of count to a value meets (R103). -/
def changeEnds (count : Nat) (e : WaitEntry) : Option Status :=
  match e.cond with
  | .atLeast v => if v ≤ count then some .success else none
  | .atMost v => if count ≤ v then some .success else none
  | .reach _ _ | .windows _ _ | .idle => none

end Sys2Proof.Machine

/-- PRESET: a value above the limit, or not below the window length of an INTERVAL session with OWN source, is BAD_PARAM;
any other becomes the count, and the waits it meets are answered before the PRESET (R31, R32, R103). -/
def Obligations.PresetSetsTheCount : Prop :=
  ∀ (w : JobRecord) (s : State) (r : JobRingId) (k : SessionId), JobReaches w r k s → s.WaitsAgree →
    let t := recordArrives r s
    let e := t.session k
    let v := (w.word 8).toNat
    let tooLong := e.mode = some .interval ∧ e.windowSource = some .own ∧ ∃ n, e.windowLength = some n ∧ n ≤ v
    (e.limitValue < v ∨ tooLong → RefusedWith r w.tag .badParam w.session 0 t (exec (.preset w) s)) ∧
    (v ≤ e.limitValue → ¬tooLong → Completes (exec (.preset w) s) fun u =>
      OnlyTablesAndWaits t u ∧ OtherSessionsKept k t u ∧
        u.session k = { e with count := v, waits := keptWaits (changeEnds v) k t } ∧
        WaitsEnded (changeEnds v) k t u ∧
        Handed (waitRecords (changeEnds v) k v t ++
          [((t.jobRing r).bound, ownRecord r w.tag .success w.session (toWord v) {} t)]) t u ∧
        HaltedBy .success r t u)

/-- READ: an item code above 5 is BAD_PARAM; otherwise the value, flags and stamp of the item, and nothing changes but
the capture's valid flag by CAPTURE and the counter read by READ_CLEAR (R34 to R38, R178). -/
def Obligations.ReadReportsTheItem : Prop :=
  ∀ (w : JobRecord) (s : State) (r : JobRingId) (k : SessionId), JobReaches w r k s →
    let t := recordArrives r s
    let e := t.session k
    let item := (w.byte 8).toNat
    let clear := w.flag 0
    let done := fun (e' : Session) (value : Nat) (flags : RecordFlags) (stamp : Word32) =>
      Completes (exec (.read w) s) fun u =>
        OnlyTables t u ∧ OtherSessionsKept k t u ∧ u.session k = e' ∧
          Handed [((t.jobRing r).bound,
            { ownRecord r w.tag .success w.session (toWord value) flags t with stamp := stamp })] t u ∧
          HaltedBy .success r t u
    (5 < item → RefusedWith r w.tag .badParam w.session 0 t (exec (.read w) s)) ∧
    (item = 0 → done e e.count {} t.stamp) ∧
    (item = 1 → e.capture.valid = true →
      done { e with capture := { e.capture with valid := false } } e.capture.value {} e.capture.stamp) ∧
    (item = 1 → e.capture.valid = false → done e 0 { captureEmpty := true } t.stamp) ∧
    (item = 2 → done e
      ((match e.state with | .free => 0 | .idle => 1 | .active => 2 | .faulted => 3)
        + (if e.hold.host then 256 else 0) + (if e.hold.inhibit then 512 else 0) + (if e.hold.pacer then 1024 else 0)
        + (if e.faultCause = none then 0 else 65536)) {} t.stamp) ∧
    (item = 3 → done (if clear then { e with wraps := 0 } else e) e.wraps {} t.stamp) ∧
    (item = 4 → done (if clear then { e with illegal := 0 } else e) e.illegal {} t.stamp) ∧
    (item = 5 → done e
      (match e.staged with
        | none => e.active.length
        | some st => e.active.length + 256 + st.points.length * 65536
            + (match st.mode with | .now => 0 | .atWrap => 1 | .atWindow => 2 | .onCommit => 3) * 16777216)
      {} t.stamp)

/-- LOAD_POINTS: the checks before the fetch in order, the empty list staged at once, and otherwise the fetch, which
stalls the ring and leaves the job unanswered (R69, R70, R74, R138). -/
def Obligations.LoadPointsChecksThenFetches : Prop :=
  ∀ (w : JobRecord) (s : State) (r : JobRingId) (k : SessionId), JobReaches w r k s →
    let t := recordArrives r s
    let e := t.session k
    let o := exec (.loadPoints w) s
    let code := (w.byte 9).toNat
    let n := (w.byte 8).toNat
    let address := (w.quad 16).toNat
    let noWindow := e.mode = none ∨ e.mode = some .tally ∨ e.mode = some .quad ∨ e.mode = some .split
    (3 < code → RefusedWith r w.tag .badParam w.session 0 t o) ∧
    (code = 2 → noWindow → RefusedWith r w.tag .badParam w.session 0 t o) ∧
    (code ≤ 3 → ¬(code = 2 ∧ noWindow) →
      (16 < n → RefusedWith r w.tag .pointInvalid w.session 16 t o) ∧
      (1 ≤ n → n ≤ 16 → address % 8 ≠ 0 ∨ 2 ^ 64 < address + 8 * n →
        RefusedWith r w.tag .badParam w.session 0 t o) ∧
      ∀ mode, [CommitMode.now, .atWrap, .atWindow, .onCommit][code]? = some mode →
        (n = 0 → Completes o fun u =>
          OnlyTables t u ∧ OtherSessionsKept k t u ∧
            u.session k =
              (if mode = .now then { e with active := [], staged := none }
               else { e with staged := some { points := [], mode := mode } }) ∧
            Answered r w.tag .success (BitVec.ofNat 8 k.val) 0 { replaced := e.staged.isSome } t u) ∧
        (1 ≤ n → n ≤ 16 → address % 8 = 0 → address + 8 * n ≤ 2 ^ 64 → Completes o fun u =>
          u = { t with jobRings := u.jobRings, fetches := u.fetches } ∧
            u.fetches = t.fetches ++
              [{ ring := r, tag := w.tag, session := k, points := n, address := address, mode := mode,
                 reportRing := (t.jobRing r).bound }] ∧
            ∀ j, u.jobRing j = if j = r then { t.jobRing r with fetchInFlight := true } else t.jobRing j))

/-- R79: a staged list is committed whatever its commit mode, with value = the number of points in the new active list;
with none the job is refused with NO_STAGED, value 0, and the lists are unchanged. -/
def Obligations.CommitPointsCommitsTheStagedList : Prop :=
  ∀ (w : JobRecord) (s : State) (r : JobRingId) (k : SessionId), JobReaches w r k s →
    let t := recordArrives r s
    let e := t.session k
    (e.staged = none → RefusedWith r w.tag .noStaged w.session 0 t (exec (.commitPoints w) s)) ∧
    ∀ st, e.staged = some st → Completes (exec (.commitPoints w) s) fun u =>
      OnlyTables t u ∧ OtherSessionsKept k t u ∧ u.session k = { e with active := st.points, staged := none } ∧
        Answered r w.tag .success w.session (toWord (u.session k).active.length) {} t u

/-- HOLD adds HOST, marks a window in progress partial when HOST was absent, and reports the count (R83, R44). -/
def Obligations.HoldAddsHost : Prop :=
  ∀ (w : JobRecord) (s : State) (r : JobRingId) (k : SessionId), JobReaches w r k s →
    let t := recordArrives r s
    let e := t.session k
    Completes (exec (.hold w) s) fun u =>
      OnlyTables t u ∧ OtherSessionsKept k t u ∧
        u.session k =
          { e with hold := { e.hold with host := true },
                   partialFlag := e.partialFlag || (e.windowOpen && !e.hold.host) } ∧
        Answered r w.tag .success w.session (toWord e.count) {} t u

/-- R84: RELEASE removes HOST and nothing else, whether HOST was present or not: INHIBIT and PACER stay, and no window is
begun, ended or restarted and no partial flag cleared; its record carries the count and the stamp clock. -/
def Obligations.ReleaseRemovesHostOnly : Prop :=
  ∀ (w : JobRecord) (s : State) (r : JobRingId) (k : SessionId), JobReaches w r k s →
    let t := recordArrives r s
    let e := t.session k
    Completes (exec (.release w) s) fun u =>
      OnlyTables t u ∧ OtherSessionsKept k t u ∧ u.session k = { e with hold := { e.hold with host := false } } ∧
        Answered r w.tag .success w.session (toWord e.count) {} t u

/-! ### Waits -/

namespace Sys2Proof.Machine

/-- The condition that an AWAIT asks for on a session, none for BAD_PARAM (R98, R176). -/
def askedFor (w : JobRecord) (e : Session) : Option WaitCond :=
  let v := (w.word 12).toNat
  let code := (w.byte 8).toNat
  let direction := (w.byte 9).toNat
  if code = 0 ∧ direction ≤ 2 ∧ v ≤ e.limitValue then
    some (.reach v (if direction = 0 then .up else if direction = 1 then .down else .either))
  else if code = 1 ∧ v ≤ e.limitValue then some (.atLeast v)
  else if code = 2 ∧ v ≤ e.limitValue then some (.atMost v)
  else if code = 3 ∧ 1 ≤ v ∧ v ≤ 65535 ∧ (e.mode = some .rate ∨ e.mode = some .span ∨ e.mode = some .interval) then
    some (.windows v v)
  else if code = 4 then some .idle
  else none

/-- The condition holds at the take (R100). -/
def holdsAtTake (e : Session) : WaitCond → Bool
  | .atLeast v => decide (v ≤ e.count)
  | .atMost v => decide (e.count ≤ v)
  | .idle => decide (e.state = .idle)
  | .reach _ _ | .windows _ _ => false

end Sys2Proof.Machine

/-- AWAIT: BAD_PARAM, then NO_WAIT_SPACE, then MET_AT_ENTRY, and otherwise the lowest free entry at the tail of the
session's list with its deadline and timer, and no record yet (R96, R98 to R101). -/
def Obligations.AwaitTakesTheLowestEntry : Prop :=
  ∀ (w : JobRecord) (s : State) (r : JobRingId) (k : SessionId), JobReaches w r k s →
    let t := recordArrives r s
    let e := t.session k
    let o := exec (.awaitJob w) s
    let noRoom := 8 ≤ e.waits.length ∨ ∀ x, t.wait x ≠ none
    (askedFor w e = none → RefusedWith r w.tag .badParam w.session 0 t o) ∧
    ∀ c, askedFor w e = some c →
      (noRoom → RefusedWith r w.tag .noWaitSpace w.session (toWord e.waits.length) t o) ∧
      (¬noRoom → holdsAtTake e c = true → Completes o fun u =>
        OnlyRings t u ∧ Answered r w.tag .metAtEntry w.session (toWord e.count) {} t u) ∧
      ∀ x : WaitId, e.waits.length < 8 → t.wait x = none → (∀ y, y < x → t.wait y ≠ none) →
        holdsAtTake e c = false → Completes o fun u =>
          u = { t with sessions := u.sessions, waits := u.waits } ∧ OtherSessionsKept k t u ∧
            u.session k = { e with waits := e.waits ++ [x] } ∧
            ∀ y, u.wait y =
              if y = x then
                some
                  { session := k, ring := r, tag := w.tag, cond := c
                    deadline := if w.word 16 = 0 then none else some (t.stamp + w.word 16)
                    timer := if w.word 16 = 0 then none else some (100 * (w.word 16).toNat)
                    reportRing := (t.jobRing r).bound }
              else t.wait y

/-- CANCEL_WAIT: every wait of the session with the target tag completes CANCELLED, in list order, and the job's own
record follows with their number (R109). -/
def Obligations.CancelWaitCancelsByTag : Prop :=
  ∀ (w : JobRecord) (s : State) (r : JobRingId) (k : SessionId), JobReaches w r k s → s.WaitsAgree →
    let t := recordArrives r s
    let e := t.session k
    let ends : WaitEntry → Option Status := fun x => if x.tag = w.half 8 ∧ x.ring = r then some .cancelled else none
    let n := (e.waits.filter (endsWait ends t)).length
    Completes (exec (.cancelWait w) s) fun u =>
      OnlyTablesAndWaits t u ∧ OtherSessionsKept k t u ∧ u.session k = { e with waits := keptWaits ends k t } ∧
        WaitsEnded ends k t u ∧
        Handed (waitRecords ends k e.count t ++
          [((t.jobRing r).bound, ownRecord r w.tag .success w.session (toWord n) {} t)]) t u ∧
        HaltedBy .success r t u

/-- WAIT_TIMEOUT: an outstanding wait whose timer has run out completes TIMEOUT with the session's count, stamped with its
deadline, in its reserved place, and nothing else of the session changes (R41, R106, R107); a free entry, or a wait without
a timer or with time to go, has no expiry (log 9). No window end is pending here. -/
def Obligations.WaitTimeoutAnswersTimeout : Prop :=
  (∀ (s : State) (x : WaitId), (∀ e, s.wait x = some e → e.timer ≠ some 0 ∨ e.deadline = none) →
      exec (.waitTimeout x) s = .next s) ∧
    ∀ (s : State) (x : WaitId) (e : WaitEntry) (deadline : Word32), s.settled → s.wait x = some e →
      e.timer = some 0 → e.deadline = some deadline →
      Completes (exec (.waitTimeout x) s) fun u =>
        u = { s with sessions := u.sessions, waits := u.waits, reportRings := u.reportRings } ∧
          OtherSessionsKept e.session s u ∧
          u.session e.session =
            { s.session e.session with waits := (s.session e.session).waits.erase x } ∧
          (∀ y, u.wait y = if y = x then none else s.wait y) ∧
          Handed [(e.reportRing,
            { body := .job e.ring (s.jobRing e.ring).take e.tag, status := .timeout,
              session := BitVec.ofNat 8 e.session.val, value := toWord (s.session e.session).count, flags := {},
              stamp := deadline })] s u

/-! ### OUTPUTS and the output lines -/

/-- OUTPUTS: a setting above 1 is BAD_PARAM; otherwise the outputs-enabled flag takes it, no logical level or timer
changes, and the value carries the claims and the claimed lines at logical high (R123, R178). -/
def Obligations.OutputsSetsTheFlag : Prop :=
  ∀ (w : JobRecord) (s : State) (r : JobRingId) (k : SessionId), JobReaches w r k s →
    let t := recordArrives r s
    let e := t.session k
    let setting := (w.byte 8).toNat
    (1 < setting → RefusedWith r w.tag .badParam w.session 0 t (exec (.outputs w) s)) ∧
    (setting ≤ 1 → Completes (exec (.outputs w) s) fun u =>
      OnlyTables t u ∧ OtherSessionsKept k t u ∧
        u.session k = { e with outputsEnabled := decide (setting = 1) } ∧
        ∃ value : Word32,
          (∀ l : OutputId, value.getLsbD l.val = e.claims.getLsbD l.val ∧
            value.getLsbD (8 + l.val) = (e.claims.getLsbD l.val && (t.output l).level)) ∧
          (∀ n, 16 ≤ n → value.getLsbD n = false) ∧ Answered r w.tag .success w.session value {} t u)

/-- The kinds of an OUTPUT action at a line and the end of a pulse: SET and CLEAR stop a pulse, PULSE starts the full
width again, PULSE_EXPIRY of a timer that has run out makes the level low; the driven level follows the level and the
owner's flag (R118, R120, R121). A timer that is stopped, or has time to go as after a restart, has no expiry (R122;
log 9). -/
def Obligations.OutputLinesSetClearPulse : Prop :=
  (∀ (i : SessionId) (l : OutputId) (kind : OutputKind) (s : State),
      let u := outputAction i l kind s
      u = { s with outputs := u.outputs } ∧ (∀ m, m ≠ l → u.output m = s.output m) ∧
        (u.output l).owner = (s.output l).owner ∧
        match kind with
        | .set => (u.output l).level = true ∧ (u.output l).timer = none
        | .clear => (u.output l).level = false ∧ (u.output l).timer = none
        | .pulse => (u.output l).level = true ∧
            ∀ width, (s.session i).pulseWidth = some width → (u.output l).timer = some (100 * width)) ∧
    (∀ (l : OutputId) (s : State), (s.output l).timer ≠ some 0 → exec (.pulseExpiry l) s = .next s) ∧
    (∀ (l : OutputId) (s : State), (s.output l).timer = some 0 →
      Completes (exec (.pulseExpiry l) s) fun u =>
        u = { s with outputs := u.outputs } ∧
          ∀ m, u.output m =
            if m = l then { owner := (s.output l).owner, level := false, timer := none } else s.output m) ∧
    ∀ (l : OutputId) (s : State), s.driven l = true ↔
      ∃ i, (s.output l).owner = some i ∧ (s.output l).level = true ∧ (s.session i).outputsEnabled = true

/-! ### Control jobs -/

namespace Sys2Proof.Machine

/-- A control job is about to reach its own checks: its record arrives from JR0 (R130, R134). -/
def ControlReaches (s : State) : Prop := s.readsFor 0

end Sys2Proof.Machine

/-- MAKE_JOB_RING: id, presence, parameters, report ring, in that order; a ring that passes is RUNNING with the job's
fields, indices 0 and no fetch (R140). -/
def Obligations.MakeJobRingMakesARunningRing : Prop :=
  ∀ (w : JobRecord) (s : State), ControlReaches s →
    let t := recordArrives 0 s
    let o := exec (.makeJobRing w) s
    let id := (w.byte 8).toNat
    let size := (w.half 12).toNat
    let base := (w.quad 16).toNat
    let weight := (w.byte 10).toNat
    let good := 2 ≤ size ∧ size ≤ 1024 ∧ base % 32 = 0 ∧ base + 32 * size ≤ 2 ^ 64 ∧ 1 ≤ weight ∧ weight ≤ 8 ∧
      1 ≤ (w.byte 9).toNat ∧ (w.byte 9).toNat ≤ 7
    (id = 0 ∨ 7 < id → RefusedWith 0 w.tag .badParam 255 0 t o) ∧
    ∀ j : JobRingId, id = j.val → j ≠ 0 →
      ((t.jobRing j).state ≠ .absent → RefusedWith 0 w.tag .ringExists 255 0 t o) ∧
      ((t.jobRing j).state = .absent → ¬good → RefusedWith 0 w.tag .badParam 255 0 t o) ∧
      ∀ q : ReportRingId, (t.jobRing j).state = .absent → good → (w.byte 9).toNat = q.val →
        ((t.reportRing q).state ≠ .opened → RefusedWith 0 w.tag .noRing 255 0 t o) ∧
        ((t.reportRing q).state = .opened → Completes o fun u =>
          OnlyRings t u ∧
            Handed [((t.jobRing 0).bound, ownRecord 0 w.tag .success 255 (toWord j.val) {} t)] t u ∧
            ∀ i, u.jobRing i =
              if i = j then
                { state := .running, base := base, size := size, post := 0, take := 0, bound := q,
                  haltFlag := w.flag 0, weight := weight, fetchInFlight := false }
              else t.jobRing i)

/-- DROP_JOB_RING refuses id 0 and ids above 7, an ABSENT ring, a ring that owns sessions or has a fetch in flight, and
otherwise forgets the ring and reports its pending records (R141). RESTART_JOB_RING by the state of the named ring: only
a HALTED ring changes, to RUNNING, with its other fields kept (R142). -/
def Obligations.JobRingsAreDroppedAndRestarted : Prop :=
  (∀ (w : JobRecord) (s : State), ControlReaches s →
    let t := recordArrives 0 s
    let o := exec (.dropJobRing w) s
    let id := (w.byte 8).toNat
    (id = 0 ∨ 7 < id → RefusedWith 0 w.tag .badParam 255 0 t o) ∧
    ∀ j : JobRingId, id = j.val → j ≠ 0 →
      let owned := (List.finRange 32).countP (fun k => decide ((t.session k).owner = some j))
      ((t.jobRing j).state = .absent → RefusedWith 0 w.tag .noRing 255 0 t o) ∧
      ((t.jobRing j).state ≠ .absent → owned ≠ 0 → RefusedWith 0 w.tag .inUse 255 (toWord owned) t o) ∧
      ((t.jobRing j).state ≠ .absent → owned = 0 → (t.jobRing j).fetchInFlight = true →
        RefusedWith 0 w.tag .inUse 255 0 t o) ∧
      ((t.jobRing j).state ≠ .absent → owned = 0 → (t.jobRing j).fetchInFlight = false → Completes o fun u =>
        OnlyRings t u ∧
          Handed [((t.jobRing 0).bound,
            ownRecord 0 w.tag .success 255
              (toWord (((t.jobRing j).post + (t.jobRing j).size - (t.jobRing j).take) % (t.jobRing j).size)) {} t)] t u ∧
          ∀ i, u.jobRing i = if i = j then {} else t.jobRing i)) ∧
  ∀ (w : JobRecord) (s : State), ControlReaches s →
    let t := recordArrives 0 s
    let o := exec (.restartJobRing w) s
    let id := (w.byte 8).toNat
    (7 < id → RefusedWith 0 w.tag .badParam 255 0 t o) ∧
    ∀ j : JobRingId, id = j.val →
      ((t.jobRing j).state = .absent → RefusedWith 0 w.tag .noRing 255 0 t o) ∧
      ((t.jobRing j).state = .broken → RefusedWith 0 w.tag .wrongState 255 0 t o) ∧
      ((t.jobRing j).state = .running ∨ (t.jobRing j).state = .halted → Completes o fun u =>
        OnlyRings t u ∧
          Handed [((t.jobRing 0).bound,
            ownRecord 0 w.tag .success 255
              (toWord (((t.jobRing j).post + (t.jobRing j).size - (t.jobRing j).take) % (t.jobRing j).size)) {} t)] t u ∧
          ∀ i, u.jobRing i = if i = j then { t.jobRing j with state := .running } else t.jobRing i)

namespace Sys2Proof.Machine

/-- The notification settings a job asks for, none for BAD_PARAM (R163, R176). -/
def settingsAsked (w : JobRecord) : Option NotifyMode :=
  let mode := (w.byte 9).toNat
  if mode = 0 then some .off
  else if mode = 1 then some .each
  else if mode = 2 ∧ 1 ≤ (w.byte 10).toNat ∧ 1 ≤ (w.half 14).toNat then
    some (.batch (w.byte 10).toNat (w.half 14).toNat)
  else none

end Sys2Proof.Machine

/-- MAKE_REPORT_RING: id, presence, geometry, settings, in that order; a ring that passes is OPEN and empty, with lap
bit 1 (R155). Its id is not that of the ring its answer goes to. -/
def Obligations.MakeReportRingOpensAnEmptyRing : Prop :=
  ∀ (w : JobRecord) (s : State), ControlReaches s →
    let t := recordArrives 0 s
    let o := exec (.makeReportRing w) s
    let id := (w.byte 8).toNat
    let size := (w.half 12).toNat
    let base := (w.quad 16).toNat
    let good := 2 ≤ size ∧ size ≤ 1024 ∧ base % 16 = 0 ∧ base + 16 * size ≤ 2 ^ 64
    (id = 0 ∨ 7 < id → RefusedWith 0 w.tag .badParam 255 0 t o) ∧
    ∀ q : ReportRingId, id = q.val → q ≠ 0 →
      ((t.reportRing q).state ≠ .absent → RefusedWith 0 w.tag .ringExists 255 0 t o) ∧
      ((t.reportRing q).state = .absent → ¬good ∨ settingsAsked w = none →
        RefusedWith 0 w.tag .badParam 255 0 t o) ∧
      ∀ settings, (t.reportRing q).state = .absent → good → settingsAsked w = some settings →
        (t.jobRing 0).bound ≠ q → Completes o fun u =>
          OnlyRings t u ∧ HaltedBy .success 0 t u ∧
            ∀ i, u.reportRing i =
              if i = q then
                { state := .opened, base := base, size := size, writeIndex := 0, lap := true, releaseIndex := 0,
                  outstanding := 0, reservations := 0, store := [], unwritten := [], notify := settings,
                  unnotified := 0, batchTimer := none }
              else handedRing [((t.jobRing 0).bound, ownRecord 0 w.tag .success 255 (toWord q.val) {} t)] i
                (t.reportRing i)

/-- TUNE_REPORT_RING: the settings take the job's values, the count restarts, the timer stops, no INT_PENDING bit is
touched, and the value is the count as it stood (R163). -/
def Obligations.TuneReportRingRestartsTheCount : Prop :=
  ∀ (w : JobRecord) (s : State), ControlReaches s →
    let t := recordArrives 0 s
    let o := exec (.tuneReportRing w) s
    let id := (w.byte 8).toNat
    (7 < id → RefusedWith 0 w.tag .badParam 255 0 t o) ∧
    ∀ q : ReportRingId, id = q.val →
      ((t.reportRing q).state = .absent → RefusedWith 0 w.tag .noRing 255 0 t o) ∧
      ((t.reportRing q).state ≠ .absent → settingsAsked w = none → RefusedWith 0 w.tag .badParam 255 0 t o) ∧
      ∀ settings, (t.reportRing q).state ≠ .absent → settingsAsked w = some settings → Completes o fun u =>
        OnlyRings t u ∧ HaltedBy .success 0 t u ∧
          ∀ i, u.reportRing i =
            handedRing
              [((t.jobRing 0).bound, ownRecord 0 w.tag .success 255 (toWord (t.reportRing q).unnotified) {} t)] i
              (if i = q then { t.reportRing q with notify := settings, unnotified := 0, batchTimer := none }
               else t.reportRing i)

namespace Sys2Proof.Machine

/-- The number of job rings bound to a report ring and of sessions that report to it (R156). -/
def usesOf (t : State) (q : ReportRingId) : Nat :=
  (List.finRange 8).countP (fun j => decide ((t.jobRing j).state ≠ .absent ∧ (t.jobRing j).bound = q))
    + (List.finRange 32).countP (fun k => decide ((t.session k).reportRing = some q))

/-- The state after an OPEN ring that nothing uses has been dropped: it is ABSENT and forgotten, and the JOB record
carries SUCCESS, value 0 (R156). -/
def DroppedUnused (q : ReportRingId) (tag : BitVec 16) (t u : State) : Prop :=
  OnlyRings t u ∧ HaltedBy .success 0 t u ∧
    ∀ i, u.reportRing i =
      if i = q then {}
      else handedRing [((t.jobRing 0).bound, ownRecord 0 tag .success 255 0 {} t)] i (t.reportRing i)

end Sys2Proof.Machine

namespace Sys2Proof.Machine

/-- The returned reservations of discarded waits at a report ring (R19, R148): each freed place serves the pending
store. -/
def reservationsReturned (waits : List WaitEntry) (id : ReportRingId) (q : ReportRing) : ReportRing :=
  (waits.filter (fun e => decide (e.reportRing = id))).foldl
    (fun q _ => if q.state = .opened then ReportRing.drain { q with reservations := q.reservations - 1 } else q) q

/-- The close without reports of a session (R19): the followers take the marks already handed to them (log 10) and are
released, and the session leaves, its waits discarded with their reservations returned and its parked records purged. -/
def ClosedQuietly (k : SessionId) (s u : State) : Prop :=
  ∃ marked v, MarksTaken (s.session k).marksOut.flatten s marked ∧
    ReleasedInOrder k (s.session k).followers marked v ∧
    u = { v with sessions := u.sessions, waits := u.waits, outputs := u.outputs, fetches := u.fetches,
                 reportRings := u.reportRings } ∧
    Leaves k v u ∧ (∀ x, u.wait x = if x ∈ (v.session k).waits then none else v.wait x) ∧
    ∀ q, u.reportRing q =
      purged k (v.session k) q (reservationsReturned ((v.session k).waits.filterMap v.wait) q (v.reportRing q))

/-- The sessions of a list are closed without reports, in its order. -/
def ClosedQuietlyInOrder : List SessionId → State → State → Prop
  | [], s, u => u = s
  | k :: rest, s, u => ∃ v, ClosedQuietly k s v ∧ ClosedQuietlyInOrder rest v u

/-- The cascade of a BROKEN report ring (R157): the job rings bound to it are dropped and their fetches belong to no ring;
the sessions that those rings owned or that report to it are closed without reports, in increasing id; the ring is ABSENT;
and the JOB record counts the sessions closed. -/
def Cascades (q : ReportRingId) (tag : BitVec 16) (t u : State) : Prop :=
  let drops := fun j : JobRingId => (t.jobRing j).state ≠ .absent ∧ (t.jobRing j).bound = q
  ∃ (closed : List SessionId) (v x : State),
    closed.Pairwise (· < ·) ∧
    (∀ k, k ∈ closed ↔ (∃ j, drops j ∧ (t.session k).owner = some j) ∨ (t.session k).reportRing = some q) ∧
    v = { t with jobRings := v.jobRings, fetches := v.fetches } ∧
    (∀ j, v.jobRing j = if drops j then {} else t.jobRing j) ∧
    v.fetches = t.fetches.map (fun f => if drops f.ring then { f with orphan := true } else f) ∧
    ClosedQuietlyInOrder closed v x ∧ OnlyRings x u ∧ HaltedBy .success 0 x u ∧
    ∀ i, u.reportRing i =
      handedRing [((x.jobRing 0).bound, ownRecord 0 tag .success 255 (toWord closed.length) {} x)] i
        (if i = q then {} else x.reportRing i)

end Sys2Proof.Machine

/-- DROP_REPORT_RING of a ring that is not BROKEN: refused while anything uses it, dropped at once when no write is under
way, and otherwise the take waits (log 15); REPORT_RING_DROPPED then drops it when its last write has ended, by the cascade
if one of those writes has broken the ring, and does nothing earlier (R156). With no drop waiting it changes nothing
(log 9). -/
def Obligations.DropReportRingWaitsForItsWrites : Prop :=
  (∀ (w : JobRecord) (s : State), ControlReaches s →
    let t := recordArrives 0 s
    let o := exec (.dropReportRing w) s
    let id := (w.byte 8).toNat
    (id = 0 ∨ 7 < id → RefusedWith 0 w.tag .badParam 255 0 t o) ∧
    ∀ q : ReportRingId, id = q.val → q ≠ 0 →
      ((t.reportRing q).state = .absent → RefusedWith 0 w.tag .noRing 255 0 t o) ∧
      ((t.reportRing q).state = .opened → usesOf t q ≠ 0 →
        RefusedWith 0 w.tag .inUse 255 (toWord (usesOf t q)) t o) ∧
      ((t.reportRing q).state = .opened → usesOf t q = 0 →
        ((t.reportRing q).unwritten = [] → Completes o (DroppedUnused q w.tag t)) ∧
        ((t.reportRing q).unwritten ≠ [] →
          o = .next { t with taking := some { ring := 0, stage := .dropping q w.tag } }))) ∧
  (∀ s : State, (∀ t, s.taking = some t → ∃ address, t.stage = .reading address) →
    exec .reportRingDropped s = .next s) ∧
  ∀ (s : State) (j : JobRingId) (q : ReportRingId) (tag : BitVec 16),
    s.taking = some { ring := j, stage := .dropping q tag } →
      ((s.reportRing q).unwritten ≠ [] → exec .reportRingDropped s = .next s) ∧
      ((s.reportRing q).unwritten = [] → s.settled →
        ((s.reportRing q).state ≠ .broken →
          Completes (exec .reportRingDropped s) (DroppedUnused q tag { s with taking := none })) ∧
        ((s.reportRing q).state = .broken → s.WaitsAgree → s.TablesAgree →
          Completes (exec .reportRingDropped s) (Cascades q tag { s with taking := none })))

/-- The cascade of a BROKEN ring, and what follows from its steps: every job ring bound to it is dropped, every session
that those rings owned or that reports to it is FREE, the fetches of the dropped rings belong to no ring, the report ring
is ABSENT, and no other job ring or output line is touched, and no other session that has no follower or pacer among those
closed (R19, R157). Followers take the marks already handed to them before a close releases them (R89; log 10), and a failed
write of a placed record of a closed session raises no lost count (log 16). -/
def Obligations.CascadeRemovesABrokenRing : Prop :=
  ∀ (w : JobRecord) (s : State) (q : ReportRingId), ControlReaches s → s.WaitsAgree → s.TablesAgree →
    let t := recordArrives 0 s
    let drops := fun j : JobRingId => (t.jobRing j).state ≠ .absent ∧ (t.jobRing j).bound = q
    let closes := fun k : SessionId =>
      (∃ j, drops j ∧ (t.session k).owner = some j) ∨ (t.session k).reportRing = some q
    (w.byte 8).toNat = q.val → q ≠ 0 → (t.reportRing q).state = .broken →
    Completes (exec (.dropReportRing w) s) fun u =>
      Cascades q w.tag t u ∧
        (∀ j, u.jobRing j = if drops j then {} else t.jobRing j) ∧ u.reportRing q = {} ∧
        (∀ k, closes k → u.session k = {}) ∧
        (∀ k, ¬closes k → (∀ p, (t.session k).pacer = some p → ¬closes p) → (∀ f ∈ (t.session k).followers, ¬closes f) →
          u.session k = t.session k) ∧
        (∀ x e, t.wait x = some e → closes e.session → u.wait x = none) ∧
        (∀ l, ∀ k, (t.output l).owner = some k → closes k → u.output l = {}) ∧
        (∀ l, (∀ k, (t.output l).owner = some k → ¬closes k) → u.output l = t.output l) ∧
        (∀ f ∈ u.fetches, drops f.ring → f.orphan = true) ∧ u.hostMemory = t.hostMemory ∧ u.stamp = t.stamp

/-! ### Input lines -/

/-- The qualified level of a line is its accepted raw level under NORMAL and the inverse under INVERTED (R113).
LINE_SETUP: BAD_PARAM, then LINE_BUSY with the lowest ACTIVE session that names the line; otherwise the width and the
polarity are replaced with the accepted level and the run kept, and only a change of polarity is an edge for the
sessions that name the line: it moves INHIBIT of those whose inhibit line it is and the pair reference of QUAD sessions,
and makes no step, since none of them counts (R24, R86, R116). -/
def Obligations.LineSetupReplacesTheSetup : Prop :=
  (∀ l : InputLine, l.level = if l.inverted then !l.accepted else l.accepted) ∧
  (∀ (s : State) (l : LineId), s.level l = ((s.line l).accepted != (s.line l).inverted)) ∧
  ∀ (w : JobRecord) (s : State), ControlReaches s →
    let t := recordArrives 0 s
    let o := exec (.lineSetup w) s
    let names := fun (l : LineId) (e : Session) => e.lineA = some l ∨ e.lineB = some l ∨ e.inhibitLine = some l
    (15 < (w.byte 8).toNat ∨ 1 < (w.byte 9).toNat ∨ (w.byte 10).toNat < 2 →
      RefusedWith 0 w.tag .badParam 255 0 t o) ∧
    ∀ l : LineId, (w.byte 8).toNat = l.val → (w.byte 9).toNat ≤ 1 → 2 ≤ (w.byte 10).toNat →
      (∀ k : SessionId, (t.session k).state = .active → names l (t.session k) →
        (∀ j : SessionId, j < k → ¬((t.session j).state = .active ∧ names l (t.session j))) →
        RefusedWith 0 w.tag .lineBusy 255 (toWord k.val) t o) ∧
      ((∀ k : SessionId, ¬((t.session k).state = .active ∧ names l (t.session k))) →
        let inverted := decide ((w.byte 9).toNat = 1)
        let setup : InputLine := { t.line l with inverted := inverted, width := (w.byte 10).toNat }
        let level := fun m : LineId => if m = l then setup.level else t.level m
        let edge := (t.line l).inverted ≠ inverted
        Completes o fun u =>
          u = { t with sessions := u.sessions, lines := u.lines, jobRings := u.jobRings, reportRings := u.reportRings } ∧
            (∀ m, u.line m = if m = l then setup else t.line m) ∧
            (∀ k, ¬(edge ∧ (t.session k).state ≠ .free ∧ names l (t.session k)) → u.session k = t.session k) ∧
            (∀ k, edge → (t.session k).state ≠ .free → names l (t.session k) →
              let e := t.session k
              u.session k =
                { e with
                  hold := if e.inhibitLine = some l then { e.hold with inhibit := setup.level } else e.hold
                  partialFlag := e.partialFlag ||
                    (decide (e.inhibitLine = some l) && setup.level && !e.hold.inhibit && e.windowOpen)
                  pairRef :=
                    if e.mode = some .quad ∧ (e.lineA = some l ∨ e.lineB = some l) then
                      match e.lineA, e.lineB with
                      | some a, some b => some (level a, level b)
                      | _, _ => none
                    else e.pairRef }) ∧
            Answered 0 w.tag .success 255 (toWord l.val) {} t u)

namespace Sys2Proof.Machine

/-- A period of the reference clock before its edges: every filter whose run is not completed takes its sample, the timers
and the dividers have one period less to go, and the pins show the driven levels as the events before have left them (R41,
R114, R118, R158; log 7, log 26). -/
def PeriodSampled (levels : BitVec 16) (s v : State) : Prop :=
  v = { s with lines := v.lines, pins := v.pins, refPhase := (s.refPhase + 1) % 10000, outputs := v.outputs,
               waits := v.waits, reportRings := v.reportRings } ∧
    (∀ l : LineId, v.line l =
      if levels.getLsbD l.val = (s.line l).accepted then { s.line l with runCount := 0 }
      else if (s.line l).runCount + 1 < (s.line l).width then { s.line l with runCount := (s.line l).runCount + 1 }
      else s.line l) ∧
    (∀ l : OutputId, v.pins.getLsbD l.val = s.driven l) ∧
    (∀ l, v.output l = { s.output l with timer := (s.output l).timer.map (· - 1) }) ∧
    (∀ x, v.wait x = (s.wait x).map (fun e => { e with timer := e.timer.map (· - 1) })) ∧
    ∀ q, v.reportRing q = { s.reportRing q with batchTimer := (s.reportRing q).batchTimer.map (· - 1) }

end Sys2Proof.Machine

/-- RAW_PIN_SAMPLE: each run count restarts at a sample equal to the accepted level and rises by 1 at another; the timers
have one period less to go and the pins show the driven levels (R41, R114, R118; log 7, log 26). Where no filter completes
its run that is all: no level changes and no session is touched. Where filters do, exactly those lines accept the sample's
level with run count 0, and everything else is what a QUALIFIED_EDGE of the same lines does from there (R22, R115): that
their edges come before the expiry of a timer that runs out in this period is the model's choice (R110; log 33). While
RESET_N is low nothing is sampled (R124). -/
def Obligations.RawPinSampleRunsTheFilters : Prop :=
  (∀ (s : State) (levels : BitVec 16) (order : List Delivery), s.phase = .hardwareReset →
      exec (.rawPinSample levels order) s = .next s) ∧
    (∀ (s : State) (levels : BitVec 16) (order : List Delivery), s.phase ≠ .hardwareReset →
      (∀ l : LineId, levels.getLsbD l.val = (s.line l).accepted ∨ (s.line l).runCount + 1 < (s.line l).width) →
      Completes (exec (.rawPinSample levels order) s) (PeriodSampled levels s)) ∧
    ∀ (s : State) (levels : BitVec 16) (order : List Delivery) (done : BitVec 16), s.phase ≠ .hardwareReset → done ≠ 0 →
      (∀ l : LineId, done.getLsbD l.val =
        decide (levels.getLsbD l.val ≠ (s.line l).accepted ∧ (s.line l).width ≤ (s.line l).runCount + 1)) →
      Completes (exec (.rawPinSample levels order) s) fun u =>
        ∃ v, PeriodSampled levels s v ∧ exec (.qualifiedEdge done order) v = .next u ∧
          ∀ l : LineId, u.line l =
            if done.getLsbD l.val = true then { s.line l with accepted := levels.getLsbD l.val, runCount := 0 }
            else v.line l

/-! ### Edges, ticks and steps -/

namespace Sys2Proof.Machine

/-- The session hears a change of some of the lines in a role (R21, R22, R115): as line A or, in QUAD, as either line of
its pair; as line B of SPLIT; as its inhibit line. -/
def HearsIn (changed : BitVec 16) (e : Session) (role : EdgeRole) : Prop :=
  let among := fun line : Option LineId => ∃ l, line = some l ∧ changed.getLsbD l.val = true
  e.state ≠ .free ∧
    match role with
    | .phase => among e.lineA ∨ (e.mode = some .quad ∧ among e.lineB)
    | .lineB => e.mode = some .split ∧ among e.lineB
    | .inhibit => among e.inhibitLine
    | .mark => False

/-- A plan of an instant's edges: every delivery that a session hears once, and no other; marks may stand among them. -/
def EdgePlan (changed : BitVec 16) (s : State) (plan : List Delivery) : Prop :=
  (plan.filter (fun d => decide (d.2 ≠ .mark))).Nodup ∧
    ∀ k role, role ≠ .mark → ((k, role) ∈ plan ↔ HearsIn changed (s.session k) role)

/-- An edge of a line that the session makes a step of at its edge select (R23). -/
def selects (select : EdgeSelect) (rises : Bool) : Bool :=
  match select with
  | .rising => rises
  | .falling => !rises
  | .both => true

/-- A session counts (R2). -/
def Counts (e : Session) : Prop := e.state = .active ∧ e.hold = {}

end Sys2Proof.Machine

/-- QUALIFIED_EDGE: of the lines named, those whose filters complete their runs accept at one instant (log 19), and every
session that names one of them hears it, once in each role; QUAD takes a change of both its lines as one (R21, R22, R114,
R115). The deliveries happen in the order the command gives, with the marks it takes among them where it takes them, and a
plan that names every one is followed as it stands (log 1). At a session each does what its role says: TALLY and RATE step
UP at an edge the select qualifies, SPLIT steps UP at a rise of line A and DOWN at a rise of line B, QUAD takes a pair
sample, a SPAN gate opens and ends spans, the inhibit line moves INHIBIT, and a mark is taken as by PACE_MARK; a session
that does not count makes no step (R2, R21, R23, R27, R44, R49, R50, R52, R86). No window end is pending at the instant. -/
def Obligations.EdgesActByRole : Prop :=
  (∀ (s : State) (lines : BitVec 16), s.phase ≠ .hardwareReset → s.settled →
    let completes := fun l : LineId => lines.getLsbD l.val = true ∧ (s.line l).width ≤ (s.line l).runCount + 1
    ((∀ l, ¬completes l) → ∀ order, exec (.qualifiedEdge lines order) s = .next s) ∧
    ∀ changed : BitVec 16, changed ≠ 0 → (∀ l : LineId, changed.getLsbD l.val = true ↔ completes l) →
      ∃ t : State, t = { s with lines := t.lines } ∧
        (∀ l : LineId, t.line l =
          if changed.getLsbD l.val = true then { s.line l with accepted := !(s.line l).accepted, runCount := 0 }
          else s.line l) ∧
        (∀ plan, EdgePlan changed s plan →
          exec (.qualifiedEdge lines plan) s = .next (plan.foldl (fun u d => deliver d u) t)) ∧
        ∀ order, ∃ plan, EdgePlan changed s plan ∧
          exec (.qualifiedEdge lines order) s = .next (plan.foldl (fun u d => deliver d u) t) ∧
          ((order.filter (fun d => decide (d.2 ≠ .mark))).Nodup →
            ∃ rest, plan = order.filter (fun d => decide (d ∈ plan)) ++ rest ∧ ∀ d ∈ rest, d.2 ≠ .mark)) ∧
  (∀ (t : State) (k : SessionId), t.settled → exec (.paceMark k) t = .next (deliver (k, .mark) t)) ∧
  (∀ (t : State) (k : SessionId) (l : LineId),
    let e := t.session k
    let u := deliver (k, .phase) t
    (e.mode = some .quad → u = pairSample k t) ∧
    (e.lineA = some l →
      (∀ select, e.mode = some .tally ∨ e.mode = some .rate → e.edgeSelect = some select →
        (Counts e → selects select (t.level l) = true → u = stepSession k .up t) ∧
        (¬(Counts e ∧ selects select (t.level l) = true) → u = t)) ∧
      (e.mode = some .split →
        (Counts e → t.level l = true → u = stepSession k .up t) ∧ (¬(Counts e ∧ t.level l = true) → u = t)) ∧
      (e.mode = some .span →
        (e.state = .active → t.level l = true → e.windowOpen = false →
          u = t.setSession k
            { e with count := 0, windowOpen := true, elapsed := 0, partialFlag := decide (e.hold ≠ {}),
                     wrappedFlag := false }) ∧
        (e.state = .active → t.level l = false → e.windowOpen = true → u = windowEnd k t) ∧
        (e.state ≠ .active ∨ t.level l = e.windowOpen → u = t)))) ∧
  (∀ (t : State) (k : SessionId) (l : LineId),
    let e := t.session k
    let u := deliver (k, .lineB) t
    e.lineB = some l →
      (Counts e → t.level l = true → u = stepSession k .down t) ∧ (¬(Counts e ∧ t.level l = true) → u = t)) ∧
  ∀ (t : State) (k : SessionId) (l : LineId),
    let e := t.session k
    e.inhibitLine = some l →
      deliver (k, .inhibit) t =
        t.setSession k
          { e with hold := { e.hold with inhibit := t.level l }
                   partialFlag := e.partialFlag || (t.level l && !e.hold.inhibit && e.windowOpen) }

namespace Sys2Proof.Machine

/-- What becomes of the waits of a session that faults: IDLE waits stay, the others end with SESSION_FAULT (R13, R108). -/
def faultEnds (e : WaitEntry) : Option Status :=
  if e.cond = .idle then none else some .sessionFault

end Sys2Proof.Machine

/-- The pair sample of a QUAD session: the reference takes the levels in every state; a counting session sees an illegal
step when both changed, which advances its counter and under FAULT makes it FAULTED, with a NOTICE ILLEGAL_STEP of its
count and then SESSION_FAULT to its waits but the IDLE ones; otherwise it steps by the table of R25 (R13, R24, R25, R26).
Point index 0 and no flags in that NOTICE are the model's (log 30). -/
def Obligations.PairSamplesStepOrAreIllegal : Prop :=
  ∀ (s : State) (i : SessionId) (a b : LineId) (a0 b0 : Bool),
    let e := s.session i
    let a1 := s.level a
    let b1 := s.level b
    let t := s.setSession i { e with pairRef := some (a1, b1) }
    let u := pairSample i s
    e.lineA = some a → e.lineB = some b → e.pairRef = some (a0, b0) →
    (¬(e.state = .active ∧ e.hold = {}) → u = t) ∧
    (e.state = .active → e.hold = {} →
      (a0 = a1 → b0 = b1 → u = t) ∧
      (a0 ≠ a1 → b0 ≠ b1 → e.policy ≠ some .fault →
        u = s.setSession i { e with pairRef := some (a1, b1), illegal := min (e.illegal + 1) 65535 }) ∧
      (a0 ≠ a1 → b0 ≠ b1 → e.policy = some .fault → s.WaitsAgree →
        let notice := nextRecord i .notice .illegalStep 0 e.count {} s
        u = { s with sessions := u.sessions, waits := u.waits, reportRings := u.reportRings } ∧
          OtherSessionsKept i s u ∧
          u.session i =
            { e with
              pairRef := some (a1, b1), illegal := min (e.illegal + 1) 65535, state := .faulted
              faultCause := some .illegalStep, seq := e.seq + 1
              lost := lostAfterOffer i e notice s.reportRing, waits := keptWaits faultEnds i s } ∧
          WaitsEnded faultEnds i s u ∧
          ∀ q, u.reportRing q =
            handedRing (waitRecords faultEnds i e.count s) q (offeredRing i e notice q (s.reportRing q))) ∧
      ∀ r, e.resolution = some r → (a0 ≠ a1 ∧ b0 = b1) ∨ (a0 = a1 ∧ b0 ≠ b1) →
        let steps := r = .x4 ∨ (r = .x2 ∧ a0 ≠ a1) ∨ (r = .x1 ∧ a0 ≠ a1 ∧ b1 = false)
        let up := ((a0, b0), (a1, b1)) ∈
          [((false, false), (true, false)), ((true, false), (true, true)), ((true, true), (false, true)),
           ((false, true), (false, false))]
        u = if steps then stepSession i (if up then .up else .down) t else t)

namespace Sys2Proof.Machine

/-- A plan of an instant's ticks: the tick of every session once; window ends and marks may stand among them. -/
def TickPlan (plan : List TickTurn) : Prop :=
  (plan.filter (fun x => decide (x.2 = .tick))).Nodup ∧ ∀ k, (k, TickPart.tick) ∈ plan

/-- The window of a RATE session with OWN source that its ticks have run to its length (R43, R48). -/
def TimerExpired (e : Session) : Prop :=
  e.state = .active ∧ e.mode = some .rate ∧ e.windowSource = some .own ∧ e.windowOpen = true ∧
    e.windowLength = some e.elapsed

end Sys2Proof.Machine

/-- TICK: a tick reaches every ACTIVE session that selects it (R43). At one that does, a RATE session with OWN source
advances window elapsed while a window is in progress, whether or not it counts, its window ending first where it has run
out (log 12); a SPAN session steps UP while a span is in progress and it counts; an INTERVAL session steps UP when it
counts (R43, R51, R54). The sessions have their turns in the order the command gives, with the window ends and marks it
takes among them where it takes them (R48, R54, R56; log 1). No window end is pending at the instant. -/
def Obligations.TicksDriveTimedSessions : Prop :=
  (∀ (s : State) (rate : TickRate) (order : List TickTurn) (k : SessionId), s.settled → (∀ x ∈ order, x.2 = .tick) →
    (∀ j, j ≠ k → ¬((s.session j).state = .active ∧ (s.session j).tick = some rate)) →
    let e := s.session k
    let o := exec (.tick rate order) s
    (¬(e.state = .active ∧ e.tick = some rate) → o = .next s) ∧
    (e.state = .active → e.tick = some rate →
      (e.mode = some .rate → e.windowSource = some .own → e.windowLength ≠ some e.elapsed →
        o = .next (if e.windowOpen = true then s.setSession k { e with elapsed := e.elapsed + 1 } else s)) ∧
      (e.mode = some .span →
        o = .next (if e.windowOpen = true ∧ e.hold = {} then stepSession k .up s else s)) ∧
      (e.mode = some .interval → o = .next (if e.hold = {} then stepSession k .up s else s)))) ∧
  (∀ (s : State) (rate : TickRate), s.settled →
    (∀ plan, TickPlan plan → exec (.tick rate plan) s = .next (plan.foldl (fun u x => takeTurn rate x u) s)) ∧
    ∀ order, ∃ plan, TickPlan plan ∧
      exec (.tick rate order) s = .next (plan.foldl (fun u x => takeTurn rate x u) s) ∧
      ((order.filter (fun x => decide (x.2 = .tick))).Nodup →
        ∃ rest, plan = order ++ rest ∧ ∀ x ∈ rest, x.2 = .tick)) ∧
  ∀ (t : State) (rate : TickRate) (k : SessionId),
    let e := t.session k
    let u := takeTurn rate (k, .tick) t
    let due := TimerExpired e ∨ e.windowEndDue = true
    (¬(e.state = .active ∧ e.tick = some rate) → u = t) ∧
    (e.state = .active → e.tick = some rate →
      (e.mode = some .rate → e.windowSource = some .own →
        (e.windowOpen = false → u = t) ∧
        (e.windowOpen = true → e.windowLength ≠ some e.elapsed →
          u = t.setSession k { e with elapsed := e.elapsed + 1 }) ∧
        (e.windowOpen = true → e.windowLength = some e.elapsed →
          let v := windowEnd k t
          u = v.setSession k { v.session k with elapsed := 1 })) ∧
      (e.mode = some .span → u = if e.windowOpen = true ∧ e.hold = {} then stepSession k .up t else t) ∧
      (e.mode = some .interval → u = if e.hold = {} then stepSession k .up t else t)) ∧
    (due → takeTurn rate (k, .windowEnd) t = windowEnd k t) ∧ (¬due → takeTurn rate (k, .windowEnd) t = t) ∧
    (t.settled → exec (.paceMark k) t = .next (takeTurn rate (k, .mark) t))

namespace Sys2Proof.Machine

/-- The hit of a step: the one point, by its index, whose value is the count and whose filter passes the direction, in a
list of distinct values (R61). -/
def HitBy (list : List Point) (count : Nat) (dir : Direction) (hit : Option (Nat × Point)) : Prop :=
  match hit with
  | some (n, p) =>
    list[n]? = some p ∧ p.value = count ∧ (p.filter = .either ∨ (p.filter = .up ↔ dir = .up))
  | none => ∀ p ∈ list, ¬(p.value = count ∧ (p.filter = .either ∨ (p.filter = .up ↔ dir = .up)))

end Sys2Proof.Machine

namespace Sys2Proof.Machine

/-- The count after a step (R28). -/
def countAfter (dir : Direction) (count limit : Nat) : Nat :=
  match dir with
  | .up => if count < limit then count + 1 else 0
  | .down => if 0 < count then count - 1 else limit

/-- A step wraps (R28). -/
def Wraps (dir : Direction) (count limit : Nat) : Prop :=
  match dir with
  | .up => limit ≤ count
  | .down => count = 0

/-- An output line after an OUTPUT action of its owner, with the owner's pulse width in microseconds (R120, R121). -/
def actedOn (o : OutputLine) (kind : OutputKind) (width : Option Nat) : OutputLine :=
  match kind with
  | .set => { o with level := true, timer := none }
  | .clear => { o with level := false, timer := none }
  | .pulse => { o with level := true, timer := some (100 * width.getD 0) }

/-- The waits that a step to a count in a direction meets (R102, R103). -/
def stepEnds (count : Nat) (dir : Direction) (e : WaitEntry) : Option Status :=
  match e.cond with
  | .reach v f => if v = count ∧ (f = .either ∨ (f = .up ↔ dir = .up)) then some .success else none
  | .atLeast v => if v ≤ count then some .success else none
  | .atMost v => if count ≤ v then some .success else none
  | .windows _ _ | .idle => none

/-- The waits that the change of the count to 0 by ZERO meets, of those that the step itself has left (R30, R67, R103). -/
def zeroEnds (count : Nat) (dir : Direction) (e : WaitEntry) : Option Status :=
  if (stepEnds count dir e).isSome then none else changeEnds 0 e

end Sys2Proof.Machine

/-- A step of a session in range, whole, in the order of R30: the count, the wrap with its counter and flag and the commit
of an AT_WRAP list, after which none is staged; of the hit point LATCH, REPORT as a POINT record with the point's index, the
stepped count and DOWN, OUTPUT and PACE; the waits that the step meets; ZERO with the waits that it meets; HOLD; and the
note of an INTERVAL window end (R28 to R30, R59, R61 to R68, R75, R77, R102, R103, R106; log 10, log 11). Of its parts: the
limit of a session is its limit field (R1), the count, the wrap and its commit come first whatever the list hits (R30), and
of a list of ascending values the hit is the one point of R61. -/
def Obligations.StepEffectsInOrder : Prop :=
  (∀ (e : Session) (limit : Nat), e.limit = some limit → e.limitValue = limit) ∧
  (∀ (e : Session) (dir : Direction),
    (Wraps dir e.count e.limitValue →
      e.steppedAndCommitted dir =
        { e with
          count := countAfter dir e.count e.limitValue
          wraps := min (e.wraps + 1) 65535
          wrappedFlag := e.wrappedFlag || e.windowOpen
          active := (listsAt .atWrap e).1, staged := (listsAt .atWrap e).2 }) ∧
    (¬Wraps dir e.count e.limitValue →
      e.steppedAndCommitted dir = { e with count := countAfter dir e.count e.limitValue })) ∧
  (∀ (list : List Point) (count : Nat) (dir : Direction) (hit : Option (Nat × Point)),
    list.Pairwise (fun p q => p.value < q.value) →
    (findHit count dir 0 list = hit ↔ HitBy list count dir hit)) ∧
  ∀ (s : State) (i : SessionId) (dir : Direction) (hit : Option (Nat × Point)), s.InRange → s.WaitsAgree →
    let e := s.session i
    let wraps := match dir with | .up => decide (e.count = e.limitValue) | .down => decide (e.count = 0)
    let count := match dir with
      | .up => if wraps then 0 else e.count + 1
      | .down => if wraps then e.limitValue else e.count - 1
    let lists := if wraps then listsAt .atWrap e else (e.active, e.staged)
    let has : (Actions → Bool) → Bool := fun f => match hit with | none => false | some (_, p) => f p.actions
    let point := nextRecord i .point .success (match hit with | none => 0 | some (n, _) => n) count
      { down := decide (dir = .down) } s
    let offered := fun q =>
      if has Actions.report then offeredRing i e point q (s.reportRing q) else s.reportRing q
    let zero := has Actions.zero
    let ends := fun x => if zero then (stepEnds count dir x).or (zeroEnds count dir x) else stepEnds count dir x
    HitBy lists.1 count dir hit →
    let u := stepSession i dir s
    u = { s with sessions := u.sessions, outputs := u.outputs, waits := u.waits, reportRings := u.reportRings } ∧
      OtherSessionsKept i s u ∧
      u.session i =
        { e with
          count := if zero then 0 else count
          wraps := if wraps then min (e.wraps + 1) 65535 else e.wraps
          wrappedFlag := e.wrappedFlag || (wraps && e.windowOpen)
          active := lists.1, staged := lists.2
          capture := if has Actions.latch then { valid := true, value := count, stamp := s.stamp } else e.capture
          seq := if has Actions.report then e.seq + 1 else e.seq
          lost := if has Actions.report then lostAfterOffer i e point s.reportRing else e.lost
          marksOut := if has Actions.pace = true ∧ e.followers ≠ [] then e.marksOut ++ [e.followers] else e.marksOut
          waits := keptWaits ends i s
          hold := { e.hold with host := e.hold.host || has Actions.hold }
          partialFlag := e.partialFlag || (has Actions.hold && !e.hold.host && e.windowOpen)
          windowEndDue := e.windowEndDue ||
            decide (e.mode = some .interval ∧ e.windowSource = some .own ∧ e.windowLength = some count) } ∧
      WaitsEnded ends i s u ∧
      (∀ q, u.reportRing q =
        handedRing
          (waitRecords (stepEnds count dir) i count s ++
            if zero then waitRecords (zeroEnds count dir) i 0 s else []) q (offered q)) ∧
      ∀ l, u.output l =
        match hit with
        | none => s.output l
        | some (_, p) =>
          match p.actions.output with
          | none => s.output l
          | some (m, kind) => if m = l then actedOn (s.output l) kind e.pulseWidth else s.output l

/-- The waits of a step that hits nothing complete SUCCESS with the stepped count, in list order, and the others stay
(R30, R97, R102, R103, R106). -/
def Obligations.StepsMeetWaitsInListOrder : Prop :=
  ∀ (s : State) (i : SessionId) (dir : Direction), s.WaitsAgree →
    let e := s.session i
    let count := countAfter dir e.count e.limitValue
    let u := stepSession i dir s
    HitBy (u.session i).active count dir none →
    WaitsEnded (stepEnds count dir) i s u ∧ (u.session i).waits = keptWaits (stepEnds count dir) i s ∧
      Handed (waitRecords (stepEnds count dir) i count s) s u ∧ u.jobRings = s.jobRings ∧
      (∀ j, j ≠ i → u.session j = s.session j) ∧ u.outputs = s.outputs

/-- R63: a LATCH action writes the count after the step and the stamp clock into the capture latch and sets its valid
flag, whatever an earlier capture held; READ CAPTURE then reports it and clears the flag. -/
def Obligations.LatchCapturesCountAndStamp : Prop :=
  (∀ (s : State) (i : SessionId) (dir : Direction) (index : Nat) (p : Point),
      let t := s.updSession i (·.steppedAndCommitted dir)
      findHit (t.session i).count dir 0 (t.session i).active = some (index, p) → p.actions.latch = true →
      ((stepSession i dir s).session i).capture =
        { valid := true, value := countAfter dir (s.session i).count (s.session i).limitValue, stamp := s.stamp }) ∧
    ∀ (w : JobRecord) (s : State) (r : JobRingId) (k : SessionId), JobReaches w r k s →
      let t := recordArrives r s
      let c := (t.session k).capture
      (w.byte 8).toNat = 1 → c.valid = true → Completes (exec (.read w) s) fun u =>
        (u.session k).capture = { c with valid := false } ∧
          Handed [((t.jobRing r).bound,
            { ownRecord r w.tag .success w.session (toWord c.value) {} t with stamp := c.stamp })] t u

/-! ### Point fetches -/

namespace Sys2Proof.Machine

/-- One entry of an array passes the checks of R73 against the value before it. -/
def EntryGood (p : PointEntry) (previous : Option Nat) (limit : Nat) (claims : BitVec 8) : Prop :=
  let value := (p.extractLsb' 0 32).toNat
  let byte := fun n => p.extractLsb' (8 * n) 8
  let actions := byte 5
  (∀ v, previous = some v → v < value) ∧ value ≤ limit ∧ (byte 4).toNat ≤ 2 ∧ actions.toNat < 64 ∧
    (actions.getLsbD 2 = true →
      (byte 6).toNat < 8 ∧ (byte 7).toNat ≤ 2 ∧ claims.getLsbD (byte 6).toNat = true)

/-- The point that an entry spells (R59, R177): the value, the direction filter, the actions by their bits, and with
OUTPUT among them the line and the kind. -/
def SpeltBy (p : PointEntry) (point : Point) : Prop :=
  let byte := fun n => p.extractLsb' (8 * n) 8
  let actions := byte 5
  point.value = (p.extractLsb' 0 32).toNat ∧
    some point.filter = [DirFilter.up, .down, .either][(byte 4).toNat]? ∧
    point.actions.latch = actions.getLsbD 0 ∧ point.actions.report = actions.getLsbD 1 ∧
    point.actions.pace = actions.getLsbD 3 ∧ point.actions.zero = actions.getLsbD 4 ∧
    point.actions.hold = actions.getLsbD 5 ∧
    (actions.getLsbD 2 = false → point.actions.output = none) ∧
    (actions.getLsbD 2 = true → ∃ line kind, point.actions.output = some (line, kind) ∧
      line.val = (byte 6).toNat ∧ some kind = [OutputKind.set, .clear, .pulse][(byte 7).toNat]?)

end Sys2Proof.Machine

/-- The array check accepts an array all of whose entries pass, as the points that the entries spell, in order, and
otherwise names the first entry that fails (R59, R73, R177). -/
def Obligations.ArrayCheckNamesTheFirstBadEntry : Prop :=
  ∀ (limit : Nat) (claims : BitVec 8) (entries : List PointEntry),
    let value := fun p : PointEntry => (p.extractLsb' 0 32).toNat
    let good := fun n : Nat => ∀ p, entries[n]? = some p →
      EntryGood p (if n = 0 then none else entries[n - 1]?.map value) limit claims
    (∀ points, checkPoints limit claims 0 none entries = .ok points →
      (∀ n, good n) ∧ points.map Point.value = entries.map value ∧
        ∀ (n : Nat) (p : PointEntry) (point : Point), entries[n]? = some p → points[n]? = some point → SpeltBy p point) ∧
    (∀ n, checkPoints limit claims 0 none entries = .error n →
      n < entries.length ∧ ¬good n ∧ ∀ m, m < n → good m) ∧
    ((∀ n, good n) → ∃ points, checkPoints limit claims 0 none entries = .ok points)

/-- The end of a point fetch: with an array that passes, the list is staged, or becomes active with mode NOW, and the job
answers with its length; with one that fails, POINT_INVALID and the index; with a bus error, FETCH_ERROR and the entry; a
void fetch WRONG_STATE; a fetch of a dropped ring nothing. The ring's stall ends, and a refusal halts the ring when its
flag is set (R18, R70, R72, R73, R74, R138, R139). No window end is pending. Any other number of entries than the fetch
reads, and an entry that it does not read, is no end of it and changes nothing (log 24). -/
def Obligations.PointFetchEndsWithOneAnswer : Prop :=
  ∀ (s : State) (n : Nat) (f : PointFetch), s.settled → s.fetches[n]? = some f →
    let e := s.session f.session
    let done := fun entries => exec (.pointFetchDone n entries) s
    let frame := fun u : State =>
      u = { s with sessions := u.sessions, jobRings := u.jobRings, reportRings := u.reportRings, fetches := u.fetches } ∧
        u.fetches = s.fetches.eraseIdx n
    let answers := fun (status : Status) (value : Nat) (flags : RecordFlags) (u : State) =>
      frame u ∧
        Handed [(f.reportRing,
          ownRecord f.ring f.tag status (BitVec.ofNat 8 f.session.val) (toWord value) flags s)] s u ∧
        ∀ j, u.jobRing j =
          if j = f.ring then
            { s.jobRing j with
              fetchInFlight := false
              state :=
                if status.cls = .refusal ∧ (s.jobRing j).haltFlag = true ∧ (s.jobRing j).state = .running then .halted
                else (s.jobRing j).state }
          else s.jobRing j
    (∀ entries, entries.length = f.points →
      (f.orphan = true → Completes (done entries) fun u => u = { s with fetches := s.fetches.eraseIdx n }) ∧
      (f.orphan = false → f.isVoid = true → Completes (done entries) fun u =>
        answers .wrongState 0 {} u ∧ u.sessions = s.sessions) ∧
      (f.orphan = false → f.isVoid = false →
        (∀ index, checkPoints e.limitValue e.claims 0 none entries = .error index →
          Completes (done entries) fun u => answers .pointInvalid index {} u ∧ u.sessions = s.sessions) ∧
        ∀ points, checkPoints e.limitValue e.claims 0 none entries = .ok points →
          Completes (done entries) fun u =>
            answers .success points.length { replaced := e.staged.isSome } u ∧ OtherSessionsKept f.session s u ∧
              u.session f.session =
                if f.mode = .now then { e with active := points, staged := none }
                else { e with staged := some { points := points, mode := f.mode } })) ∧
    (∀ entries, entries.length ≠ f.points → done entries = .next s) ∧
    (∀ entry, f.points ≤ entry → exec (.pointFetchError n entry) s = .next s) ∧
    ∀ entry, entry < f.points →
      (f.orphan = true →
        Completes (exec (.pointFetchError n entry) s) fun u => u = { s with fetches := s.fetches.eraseIdx n }) ∧
      (f.orphan = false → Completes (exec (.pointFetchError n entry) s) fun u =>
        answers (if f.isVoid then .wrongState else .fetchError) (if f.isVoid then 0 else entry) {} u ∧
          u.sessions = s.sessions)

/-! ### Window ends and pace marks -/

/-- A window end has all its effects (R45). WINDOW_TIMER_EXPIRY is that of an ACTIVE RATE session with OWN source whose
elapsed ticks equal its window length, INTERVAL_WINDOW_END that of the window that a step has ended; neither does
anything at a session where its condition does not hold (R48, R54; log 9, log 11). The window ends that steps have noted
come before the next event that reaches a session: a command of such an event that occurs does what it does in the state
in which they have been taken, in session order, and in which none is noted any more (R30, R54; log 11). Two clauses are
the model's choice: the window flags of a SPAN session are clear once its span has ended, where R29 clears the wrapped
flag when the next span begins (log 23); and the marks go into `marksOut`, behind those still out, one list for each
window end (log 10). -/
def Obligations.WindowEndsTakeEffectWhole : Prop :=
  (∀ s : State, s.WaitsAgree → ∃ v, WindowEndsTaken (List.finRange 32) s v ∧ v.settled ∧ v.WaitsAgree ∧
    (∀ rate order, exec (.tick rate order) s = exec (.tick rate order) v) ∧
    (∀ f, exec (.paceMark f) s = exec (.paceMark f) v) ∧
    (∀ (lines : BitVec 16) order, s.phase ≠ .hardwareReset →
      (∃ l : LineId, lines.getLsbD l.val = true ∧ (s.line l).width ≤ (s.line l).runCount + 1) →
      exec (.qualifiedEdge lines order) s = exec (.qualifiedEdge lines order) v) ∧
    (∀ (n : Nat) (f : PointFetch), s.fetches[n]? = some f →
      (∀ entries, entries.length = f.points → exec (.pointFetchDone n entries) s = exec (.pointFetchDone n entries) v) ∧
        ∀ entry, entry < f.points → exec (.pointFetchError n entry) s = exec (.pointFetchError n entry) v) ∧
    (∀ (x : WaitId) (y : WaitEntry) (d : Word32), s.wait x = some y → y.timer = some 0 → y.deadline = some d →
      exec (.waitTimeout x) s = exec (.waitTimeout x) v) ∧
    ∀ (j : JobRingId) (q : ReportRingId) (tag : BitVec 16), s.taking = some { ring := j, stage := .dropping q tag } →
      (v.reportRing q).unwritten = [] → exec .reportRingDropped s = exec .reportRingDropped v) ∧
  ∀ (s : State) (i : SessionId), s.WaitsAgree →
    let e := s.session i
    EndsAWindow i s (windowEnd i s) ∧
    (TimerExpired e → Completes (exec (.windowTimerExpiry i) s) (EndsAWindow i s)) ∧
    (¬TimerExpired e → exec (.windowTimerExpiry i) s = .next s) ∧
    (e.windowEndDue = true → Completes (exec (.intervalWindowEnd i) s) (EndsAWindow i s)) ∧
    (e.windowEndDue = false → exec (.intervalWindowEnd i) s = .next s)

/-- PACE_MARK takes the oldest mark handed to the follower, where none before it in the list is still to take its mark of
the same event (R58, R89; log 10). An ACTIVE follower without a window loses PACER and begins its first window with no
SAMPLE, partial at once if it is still held; one with a window ends it; a follower that is not ACTIVE ignores the mark
(R44, R87, R90). With no pacer, no mark or the turn of another, nothing happens (log 9). No window end is pending. -/
def Obligations.PaceMarksBeginAndEndWindows : Prop :=
  ∀ (s : State) (f : SessionId), s.settled → s.WaitsAgree →
    let o := exec (.paceMark f) s
    ((s.session f).pacer = none → o = .next s) ∧
    ∀ p, (s.session f).pacer = some p →
      let out := (s.session p).marksOut
      ((∀ g ∈ out, f ∉ g) → o = .next s) ∧
      ∀ older group newer, out = older ++ group :: newer → (∀ g ∈ older, f ∉ g) → f ∈ group →
        (group.head? ≠ some f → o = .next s) ∧
        ∀ more, group = f :: more →
          let t := s.setSession p
            { s.session p with marksOut := older ++ if more = [] then newer else more :: newer }
          let e := t.session f
          let hold := { e.hold with pacer := false }
          (e.state ≠ .active → o = .next t) ∧
          (e.state = .active → e.windowOpen = true → Completes o (EndsAWindow f t)) ∧
          (e.state = .active → e.windowOpen = false →
            o = .next (t.setSession f
              { e with hold := hold, windowOpen := true, elapsed := 0, partialFlag := decide (hold ≠ {}),
                       wrappedFlag := false }))

/-! ### Report rings and notification -/

namespace Sys2Proof.Machine

/-- A ring that has placed one parked record: it takes the slot at the write index with the lap bit of the ring, behind the
records placed before it, and the lap bit flips where the write index returns to 0 (R145, R150). -/
def ReportRing.withParked (q : ReportRing) (rec : ReportRecord) : ReportRing :=
  { q with
    writeIndex := if q.writeIndex + 1 = q.size then 0 else q.writeIndex + 1
    lap := if q.writeIndex + 1 = q.size then !q.lap else q.lap
    outstanding := q.outstanding + 1
    unwritten := q.unwritten ++ [{ slot := q.writeIndex, lap := q.lap, record := rec, owner := namedSession rec }] }

end Sys2Proof.Machine

/-- A record of a session that an event produces takes its sequence number whatever becomes of it; written or parked it
carries the lost count, which becomes 0; dropped, or for a ring that is not OPEN (log 25 where there is none), it raises
the lost count by 1 up to 65,535. The drain is the placing of as many parked records as there are free places, oldest
first and one after another, in consecutive slots; it keeps the other parked records in order, and every other field of
the ring (R145, R149, R150, R151, R154). Free space is the size less outstanding records and reservations (R148), and a
parked record belongs to the session that it names (R153). -/
def Obligations.UnsolicitedRecordsParkAndDrainInOrder : Prop :=
  (∀ (s : State) (i : SessionId) (kind : UnsolicitedKind) (status : Status) (index value : Nat) (flags : RecordFlags),
    let e := s.session i
    let rec' : ReportRecord :=
      { body := .unsolicited kind index e.seq e.lost, status := status, session := BitVec.ofNat 8 i.val,
        value := toWord value, flags := flags, stamp := s.stamp }
    let u := postRecord i kind status index value flags s
    u = { s with sessions := u.sessions, reportRings := u.reportRings } ∧ OtherSessionsKept i s u ∧
      (∀ q, e.reportRing = some q → (s.reportRing q).state = .opened →
        (∀ r, (s.reportRing q).withUnsolicited rec' (some i) = some r →
          u.session i = { e with seq := e.seq + 1, lost := 0 } ∧
            ∀ p, u.reportRing p = if p = q then r else s.reportRing p) ∧
        ((s.reportRing q).withUnsolicited rec' (some i) = none →
          u.session i = { e with seq := e.seq + 1, lost := min (e.lost + 1) 65535 } ∧ u.reportRings = s.reportRings)) ∧
      ((∀ q, e.reportRing = some q → (s.reportRing q).state ≠ .opened) →
        u.session i = { e with seq := e.seq + 1, lost := min (e.lost + 1) 65535 } ∧ u.reportRings = s.reportRings)) ∧
  (∀ rec : ReportRecord, rec.sessionOf = namedSession rec) ∧
  ∀ q : ReportRing,
    q.freeSpace = q.size - (q.outstanding + q.reservations) ∧
    let n := min q.store.length (q.size - (q.outstanding + q.reservations))
    q.drain = { (q.store.take n).foldl ReportRing.withParked q with store := q.store.drop n } ∧
      q.drain.store = q.store.drop n ∧ q.drain.outstanding = q.outstanding + n ∧
      q.drain.reservations = q.reservations ∧
      q.drain.unwritten.map Placed.record = q.unwritten.map Placed.record ++ q.store.take n ∧
      (q.writeIndex < q.size →
        q.drain.writeIndex = (q.writeIndex + n) % q.size ∧
          (q.drain.unwritten.drop q.unwritten.length).map Placed.slot =
            (List.range n).map (fun i => (q.writeIndex + i) % q.size)) ∧
      q.drain.state = q.state ∧ q.drain.size = q.size ∧ q.drain.base = q.base ∧
      q.drain.releaseIndex = q.releaseIndex

namespace Sys2Proof.Machine

/-- The table of status codes, row by row (R179). -/
def statusRows : List (StatusClass × List (Status × Nat)) :=
  [(.success, [(.success, 0x00), (.metAtEntry, 0x01)]),
   (.outcome,
     [(.timeout, 0x10), (.cancelled, 0x11), (.sessionStopped, 0x12), (.sessionClosed, 0x13), (.sessionFault, 0x14),
      (.pacerLost, 0x15)]),
   (.refusal,
     [(.badKind, 0x20), (.wrongRing, 0x21), (.badSession, 0x22), (.notOwner, 0x23), (.wrongState, 0x24),
      (.badParam, 0x25), (.noSession, 0x26), (.sessionTaken, 0x27), (.lineBusy, 0x28), (.outputTaken, 0x29),
      (.bound, 0x2a), (.pointInvalid, 0x2b), (.noStaged, 0x2c), (.noWaitSpace, 0x2d), (.fetchError, 0x2e),
      (.ringExists, 0x2f), (.noRing, 0x30), (.inUse, 0x31)]),
   (.notice, [(.illegalStep, 0x40), (.jrBroken, 0x41), (.rrBroken, 0x42)])]

/-- The status carries this code and class. -/
def HasCode (status : Status) (code : Nat) : Prop :=
  ∃ row ∈ statusRows, (status, code) ∈ row.2 ∧ status.cls = row.1

/-- The sixteen bytes of a report record, byte k at bits 8k to 8k + 7 (R174, R178, R179). Numbers that fit their fields
stand in them, and every bit that the layout does not name is 0. -/
def LaidOut (rec : ReportRecord) (lap : Bool) (bytes : BitVec 128) : Prop :=
  let field := fun offset bit width : Nat => (bytes.extractLsb' (8 * offset + bit) width).toNat
  let flag := fun n : Nat => bytes.getLsbD (16 + n)
  field 0 2 5 = 0 ∧ bytes.getLsbD 7 = lap ∧
    flag 0 = rec.flags.replaced ∧ flag 1 = rec.flags.isPartial ∧ flag 2 = rec.flags.wrapped ∧
    flag 3 = rec.flags.down ∧ flag 4 = rec.flags.captureEmpty ∧ field 2 5 3 = 0 ∧ HasCode rec.status (field 3 0 8) ∧
    field 4 0 8 = rec.session.toNat ∧ field 8 0 32 = rec.value.toNat ∧ field 12 0 32 = rec.stamp.toNat ∧
    match rec.body with
    | .job ring taken tag =>
      field 0 0 2 = 0 ∧ field 1 0 3 = ring.val ∧ field 1 3 1 = 0 ∧ field 1 6 2 = 0 ∧
        (taken < 1024 → field 1 4 2 = taken / 256 ∧ field 5 0 8 = taken % 256) ∧ field 6 0 16 = tag.toNat
    | .unsolicited kind index seq lost =>
      field 0 0 2 = (match kind with | .point => 1 | .sample => 2 | .notice => 3) ∧ field 1 4 4 = 0 ∧
        (index < 16 → field 1 0 4 = index) ∧ field 5 0 8 = seq.toNat ∧ (lost < 65536 → field 6 0 16 = lost)

end Sys2Proof.Machine

/-- REPORT_WRITE_DONE: the sixteen bytes of the oldest unwritten record stand at its slot, laid out by R178 with the
status codes of R179, and every other byte of host memory is as before; the ring's notification counts the record by its
mode. BATCH_TIMER_EXPIRY of a timer that has run out sets the ring's bit, restarts the count and stops the timer,
whatever RUN, FATAL and INT_ENABLE hold; a timer that is stopped or has time to go has no expiry (R146, R158, R159,
R160, R174, R178, R179; log 9). -/
def Obligations.ReportWriteDoneAndBatchTimerNotify : Prop :=
  (∀ (rec : ReportRecord) (lap : Bool), LaidOut rec lap (rec.encode lap)) ∧
  (∀ n : Nat, toWord n = BitVec.ofNat 32 n ∧ toByte n = BitVec.ofNat 8 n) ∧
  (∀ (s : State) (q : ReportRingId) (p : Placed) (rest : List Placed), (s.reportRing q).unwritten = p :: rest →
      let ring := s.reportRing q
      let address := ring.base + 16 * p.slot
      let bit : BitVec 8 := 1#8 <<< q.val
      Completes (exec (.reportWriteDone q) s) fun u =>
        u = { s with hostMemory := u.hostMemory, reportRings := u.reportRings, intPending := u.intPending } ∧
          (∀ n, n < 16 → u.hostMemory.read (address + n) = some ((p.record.encode p.lap).extractLsb' (8 * n) 8)) ∧
          (∀ a, a < address ∨ address + 16 ≤ a → u.hostMemory.read a = s.hostMemory.read a) ∧
          (∀ i, i ≠ q → u.reportRing i = s.reportRing i) ∧
          match ring.notify with
          | .off => u.reportRing q = { ring with unwritten := rest } ∧ u.intPending = s.intPending
          | .each => u.reportRing q = { ring with unwritten := rest } ∧ u.intPending = s.intPending ||| bit
          | .batch count time =>
            if count ≤ ring.unnotified + 1 then
              u.reportRing q = { ring with unwritten := rest, unnotified := 0, batchTimer := none } ∧
                u.intPending = s.intPending ||| bit
            else
              u.reportRing q =
                { ring with unwritten := rest, unnotified := ring.unnotified + 1
                            batchTimer := if ring.unnotified = 0 then some (100 * time) else ring.batchTimer } ∧
                u.intPending = s.intPending) ∧
  ∀ (s : State) (q : ReportRingId),
    ((s.reportRing q).batchTimer ≠ some 0 → exec (.batchTimerExpiry q) s = .next s) ∧
    ((s.reportRing q).batchTimer = some 0 → Completes (exec (.batchTimerExpiry q) s) fun u =>
      u = { s with reportRings := u.reportRings, intPending := s.intPending ||| (1#8 <<< q.val) } ∧
        ∀ i, u.reportRing i =
          if i = q then { s.reportRing q with unnotified := 0, batchTimer := none } else s.reportRing i)

/-- REPORT_WRITE_ERROR: the ring is BROKEN with its reservations, pending store and unwritten records discarded and its
other fields kept; each unwritten record of a session raises that session's lost count; RR0 puts the device into FATAL,
any other ring sends NOTICE RR_BROKEN to RR0 (R153, R154, R152). -/
def Obligations.ReportWriteErrorBreaksTheRing : Prop :=
  ∀ (s : State) (q : ReportRingId), (s.reportRing q).unwritten ≠ [] →
    let ring := s.reportRing q
    let broken : ReportRing := { ring with state := .broken, reservations := 0, store := [], unwritten := [] }
    let notice : ReportRecord :=
      { body := .unsolicited .notice 0 0 s.rr0Lost, status := .rrBroken, session := 255, value := toWord q.val,
        flags := {}, stamp := s.stamp }
    Completes (exec (.reportWriteError q) s) fun u =>
      u = { s with sessions := u.sessions, reportRings := u.reportRings, rr0Lost := u.rr0Lost,
                   fatalCause := if q = 0 then .rr0Broken else s.fatalCause } ∧
        u.reportRing q = broken ∧ (∀ i, i ≠ q → i ≠ 0 → u.reportRing i = s.reportRing i) ∧
        (∀ k, (s.session k).lost ≤ 65535 → u.session k =
          { s.session k with
            lost := min ((s.session k).lost + ring.unwritten.countP (fun p => decide (p.owner = some k))) 65535 }) ∧
        (q = 0 → u.rr0Lost = s.rr0Lost) ∧
        (q ≠ 0 →
          match (s.reportRing 0).state, (s.reportRing 0).withUnsolicited notice none with
          | .opened, some r => u.reportRing 0 = r ∧ u.rr0Lost = 0
          | .opened, none => u.reportRing 0 = s.reportRing 0 ∧ u.rr0Lost = min (s.rr0Lost + 1) 65535
          | _, _ => u.reportRing 0 = s.reportRing 0 ∧ u.rr0Lost = s.rr0Lost)

/-! ### Registers -/

/-- JPOST and RRELEASE while READY is 1: an index within its ring, and for RRELEASE a count no greater than outstanding,
is taken, and freed places of an OPEN ring are drained; any other write only sets BAD_INDEX. While READY is 0 both are
ignored (R127, R147, R150, R165). -/
def Obligations.IndexWritesAreTakenOrSetBadIndex : Prop :=
  ∀ (s : State) (word : Word32),
    let index := (word.extractLsb' 0 16).toNat
    let id := (word.extractLsb' 24 8).toNat
    (s.phase ≠ .ready → exec (.jpost word) s = .next s ∧ exec (.rrelease word) s = .next s) ∧
    (s.phase = .ready →
      (7 < id → exec (.jpost word) s = .next { s with badIndex := true } ∧
        exec (.rrelease word) s = .next { s with badIndex := true }) ∧
      (∀ j : JobRingId, id = j.val →
        ((s.jobRing j).state = .absent ∨ (s.jobRing j).size ≤ index →
          exec (.jpost word) s = .next { s with badIndex := true }) ∧
        ((s.jobRing j).state ≠ .absent → index < (s.jobRing j).size →
          exec (.jpost word) s = .next (s.setJobRing j { s.jobRing j with post := index }))) ∧
      ∀ q : ReportRingId, id = q.val →
        let ring := s.reportRing q
        let count := (index + ring.size - ring.releaseIndex) % ring.size
        let freed : ReportRing := { ring with releaseIndex := index, outstanding := ring.outstanding - count }
        (ring.state = .absent ∨ ring.size ≤ index ∨ ring.outstanding < count →
          exec (.rrelease word) s = .next { s with badIndex := true }) ∧
        (ring.state ≠ .absent → index < ring.size → count ≤ ring.outstanding →
          exec (.rrelease word) s =
            .next (s.setReportRing q (if ring.state = .opened then freed.drain else freed))))

/-- While READY is 0 no register write does anything. While READY is 1: INT_PENDING clears the bits written 1, STATUS
clears BAD_INDEX by a 1, the control region takes its words while RUN is 0 and keeps them while it is 1, and
REGISTER_WRITE at an offset is the command of the register there, with IDENT, and an offset outside the map (log 21),
ignored. A read gives each register's fields as they stand: IDENT its constants, STATUS with TAKING while a take is in
progress or a ring has a fetch in flight, JPOST and RRELEASE 0, and an offset outside the map 0 (log 21) (R161, R165, R167,
R168, R180). A bit that the map does not name is ignored when written and reads 0, those of CR_SIZES too (log 20). -/
def Obligations.RegisterWritesActByOffset : Prop :=
  (∀ (s : State) (offset : Nat) (word : Word32) (reg : CrRegister), s.phase ≠ .ready →
    exec (.registerWrite offset word) s = .next s ∧ exec (.controlRegionWrite reg word) s = .next s ∧
      exec (.run word) s = .next s ∧ exec (.startUp word) s = .next s ∧ exec (.intEnable word) s = .next s ∧
      exec (.engineReset word) s = .next s ∧ exec (.badIndexClear word) s = .next s ∧
      exec (.intPending word) s = .next s) ∧
  (∀ (s : State) (word : Word32), s.phase = .ready →
    ((Completes (exec (.intPending word) s) fun u =>
      u = { s with intPending := u.intPending } ∧
        ∀ q : ReportRingId, u.intPending.getLsbD q.val = (s.intPending.getLsbD q.val && !word.getLsbD q.val)) ∧
    exec (.badIndexClear word) s = .next { s with badIndex := s.badIndex && !word.getLsbD 8 } ∧
    (s.run = true → ∀ reg, exec (.controlRegionWrite reg word) s = .next s) ∧
    (s.run = false →
      exec (.controlRegionWrite .baseLo word) s = .next { s with crBaseLo := word } ∧
      exec (.controlRegionWrite .baseHi word) s = .next { s with crBaseHi := word } ∧
      exec (.controlRegionWrite .sizes word) s =
        .next { s with crJr0Size := word.extractLsb' 0 9, crRr0Size := word.extractLsb' 16 9 }) ∧
    ∀ offset, exec (.registerWrite offset word) s =
      if offset = 0x04 then exec (.run word) s
      else if offset = 0x08 then exec (.badIndexClear word) s
      else if offset = 0x0c then exec (.controlRegionWrite .baseLo word) s
      else if offset = 0x10 then exec (.controlRegionWrite .baseHi word) s
      else if offset = 0x14 then exec (.controlRegionWrite .sizes word) s
      else if offset = 0x18 then exec (.jpost word) s
      else if offset = 0x1c then exec (.rrelease word) s
      else if offset = 0x20 then exec (.intPending word) s
      else .next s)) ∧
  ∀ s : State,
    let control := s.readRegister 0x04
    let status := s.readRegister 0x08
    let sizes := s.readRegister 0x14
    s.readRegister 0x00 = 7#3 ++ 7#3 ++ 7#3 ++ 15#4 ++ 31#5 ++ 1#6 ++ 0x3c#8 ∧
      control = (0#29 ++ BitVec.ofBool s.intEnable ++ BitVec.ofBool (s.phase = .engineReset) ++ BitVec.ofBool s.run) ∧
      status.getLsbD 0 = decide (s.phase = .ready) ∧
      (status.getLsbD 1 = true ↔ (∃ t, s.taking = some t) ∨ ∃ j, (s.jobRing j).fetchInFlight = true) ∧
      status.getLsbD 2 = decide (s.fatalCause ≠ .none) ∧ status.getLsbD 3 = false ∧
      status.extractLsb' 4 2 = (match s.fatalCause with | .none => 0 | .config => 1 | .rr0Broken => 2) ∧
      status.extractLsb' 6 2 = 0 ∧ status.getLsbD 8 = s.badIndex ∧ status.extractLsb' 9 23 = 0 ∧
      s.readRegister 0x0c = s.crBaseLo ∧ s.readRegister 0x10 = s.crBaseHi ∧
      sizes = 0#7 ++ s.crRr0Size ++ 0#7 ++ s.crJr0Size ∧
      s.readRegister 0x18 = 0 ∧ s.readRegister 0x1c = 0 ∧ s.readRegister 0x20 = 0#24 ++ s.intPending ∧
      ∀ offset, offset ∉ [0x00, 0x04, 0x08, 0x0c, 0x10, 0x14, 0x18, 0x1c, 0x20] → s.readRegister offset = 0

/-- RUN, START_UP, INT_ENABLE and ENGINE_RESET are four rows of one CONTROL write, the same for every word and in every
state (R166; log 8), so that a change of RUN from 0 to 1 while JR0 is ABSENT is the start-up (R170) and a word with RESET 1
the engine reset (R172). Without RESET, INT_ENABLE takes its bit; RUN takes its bit where the write is not the start-up, but
keeps its value in FATAL (R166, R171). -/
def Obligations.ControlWritesSetRunAndIntEnable : Prop :=
  (∀ (s : State) (word : Word32),
    exec (.run word) s = exec (.startUp word) s ∧ exec (.run word) s = exec (.intEnable word) s ∧
      exec (.run word) s = exec (.engineReset word) s) ∧
  ∀ (s : State) (word : Word32), s.phase = .ready → word.getLsbD 1 = false →
    let enabled := { s with intEnable := word.getLsbD 2 }
    (s.fatalCause ≠ .none → exec (.run word) s = .next enabled) ∧
      (s.fatalCause = .none → ¬(word.getLsbD 0 = true ∧ s.run = false ∧ (s.jobRing 0).state = .absent) →
        exec (.run word) s = .next { enabled with run := word.getLsbD 0 })

/-- START_UP: with a control region that passes the four checks JR0 and RR0 are made and RUN becomes 1; with one that
fails, FATAL with cause CONFIG and nothing made (R166, R168, R170). The weight 0 in JR0's entry is the model's, for a field
that JR0 does not use (R125; log 32). -/
def Obligations.StartUpMakesTheControlRings : Prop :=
  ∀ (s : State) (word : Word32), s.phase = .ready → word.getLsbD 1 = false → word.getLsbD 0 = true → s.run = false →
    s.fatalCause = .none → (s.jobRing 0).state = .absent →
    let base := s.crBaseHi.toNat * 2 ^ 32 + s.crBaseLo.toNat
    let j := s.crJr0Size.toNat
    let r := s.crRr0Size.toNat
    let good := 2 ≤ j ∧ j ≤ 256 ∧ 2 ≤ r ∧ r ≤ 256 ∧ base % 32 = 0 ∧ base + 32 * j + 16 * r ≤ 2 ^ 64
    (¬good → exec (.startUp word) s = .next { s with intEnable := word.getLsbD 2, fatalCause := .config }) ∧
    (good → Completes (exec (.startUp word) s) fun u =>
      u = { s with intEnable := word.getLsbD 2, run := true, rr0Lost := 0, jobRings := u.jobRings,
                   reportRings := u.reportRings } ∧
        (∀ i, u.reportRing i =
          if i = 0 then
            { state := .opened, base := base + 32 * j, size := r, writeIndex := 0, lap := true, releaseIndex := 0,
              outstanding := 0, reservations := 0, store := [], unwritten := [], notify := .each, unnotified := 0,
              batchTimer := none }
          else s.reportRing i) ∧
        ∀ i, u.jobRing i =
          if i = 0 then
            { state := .running, base := base, size := j, post := 0, take := 0, bound := 0, haltFlag := false,
              weight := 0, fetchInFlight := false }
          else s.jobRing i)

/-- R162: INT_N is asserted exactly while INT_ENABLE is 1 and some INT_PENDING bit is set; it follows both at once;
writing INT_ENABLE leaves the bits; a hardware reset clears both; an engine reset clears the bits and keeps INT_ENABLE as
its write left it (log 8). -/
def Obligations.IntNFollowsEnableAndPending : Prop :=
  (∀ s : State, s.intN = true ↔ s.intEnable = true ∧ ∃ q : ReportRingId, s.intPending.getLsbD q.val = true) ∧
    (∀ (s : State) (word : Word32), s.phase = .ready → word.getLsbD 1 = false →
      Completes (exec (.intEnable word) s) fun u => u.intEnable = word.getLsbD 2 ∧ u.intPending = s.intPending) ∧
    (∀ s : State, Completes (exec .hardwareReset s) fun u =>
      u.intEnable = false ∧ u.intPending = 0 ∧ u.intN = false) ∧
    ∀ (s : State) (word : Word32), s.phase = .ready → word.getLsbD 1 = true →
      Completes (exec (.engineReset word) s) fun u =>
        u.intPending = 0 ∧ u.intEnable = word.getLsbD 2 ∧ u.intN = false

/-! ### Resets and clocks -/

namespace Sys2Proof.Machine

/-- What both resets leave of sessions, waits, fetches, rings and outputs (R20, R125, R129, R143, R172). -/
def EverythingFreed (u : State) : Prop :=
  (∀ k, u.session k = {}) ∧ (∀ x, u.wait x = none) ∧ u.fetches = [] ∧ (∀ j, (u.jobRing j).state = .absent) ∧
    (∀ q, (u.reportRing q).state = .absent ∧ (u.reportRing q).store = [] ∧ (u.reportRing q).reservations = 0 ∧
      (u.reportRing q).batchTimer = none) ∧
    (∀ l, u.output l = { owner := none, level := false, timer := none }) ∧ u.turn = 7 ∧ u.turnLeft = 0 ∧
    u.taking = none ∧ u.rr0Lost = 0 ∧ u.run = false ∧ u.fatalCause = .none ∧ u.intPending = 0

/-- The bus writes that a reset leaves under way: those of before, and the write of the oldest unwritten record of each ring
(R143, R146; log 17). -/
def straysAfter (s : State) : List StrayWrite :=
  s.strays ++ (List.finRange 8).filterMap fun q =>
    (s.reportRing q).unwritten.head?.map fun p =>
      { ring := q, address := (s.reportRing q).base + 16 * p.slot, data := p.record.encode p.lap }

end Sys2Proof.Machine

/-- ENGINE_RESET frees everything, writes no record, and keeps BAD_INDEX, the control region, the lines, the clocks and
host memory; READY is 0 and RESET reads 1 until ENGINE_RESET_END, which changes nothing else (R20, R166, R172) and outside
an engine reset changes nothing (log 9). The bus write under way at each ring is left to the bus: REPORT_WRITE_DONE or
REPORT_WRITE_ERROR at a ring without an unwritten record ends the oldest such write, whose bytes land or not, and nothing
else (R143, R172; log 17). -/
def Obligations.EngineResetFreesEverything : Prop :=
  (∀ (s : State) (word : Word32), s.phase = .ready → word.getLsbD 1 = true →
      Completes (exec (.engineReset word) s) fun u =>
        EverythingFreed u ∧ u.phase = .engineReset ∧ (u.readRegister 0x04).getLsbD 1 = true ∧
          (u.readRegister 0x08).getLsbD 0 = false ∧ u.intEnable = word.getLsbD 2 ∧ u.badIndex = s.badIndex ∧
          u.crBaseLo = s.crBaseLo ∧ u.crBaseHi = s.crBaseHi ∧ u.crJr0Size = s.crJr0Size ∧
          u.crRr0Size = s.crRr0Size ∧ u.lines = s.lines ∧ u.stamp = s.stamp ∧ u.refPhase = s.refPhase ∧
          u.hostMemory = s.hostMemory ∧ u.strays = straysAfter s) ∧
    (∀ s : State, s.phase = .engineReset → exec .engineResetEnd s = .next { s with phase := .ready }) ∧
    (∀ s : State, s.phase ≠ .engineReset → exec .engineResetEnd s = .next s) ∧
    ∀ (s : State) (q : ReportRingId), (s.reportRing q).unwritten = [] →
      ((∀ x ∈ s.strays, x.ring ≠ q) →
        exec (.reportWriteDone q) s = .next s ∧ exec (.reportWriteError q) s = .next s) ∧
      ∀ older x newer, s.strays = older ++ x :: newer → (∀ y ∈ older, y.ring ≠ q) → x.ring = q →
        exec (.reportWriteError q) s = .next { s with strays := older ++ newer } ∧
          Completes (exec (.reportWriteDone q) s) fun u =>
            u = { s with strays := older ++ newer, hostMemory := u.hostMemory } ∧
              (∀ n, n < 16 → u.hostMemory.read (x.address + n) = some (x.data.extractLsb' (8 * n) 8)) ∧
              ∀ a, a < x.address ∨ x.address + 16 ≤ a → u.hostMemory.read a = s.hostMemory.read a

/-- HARDWARE_RESET gives every register and block its value after hardware reset; RESET_N_RISE begins the initialisation
with each filter accepting its sample, which is no edge; INITIALISATION_END makes READY 1; the stamp clock advances by 1,
continues at 0 after 4,294,967,295, and stands while RESET_N is low (R40, R113, R169); the dividers restart (R39). A
RESET_N that is high does not rise, and outside initialisation none ends: neither changes anything (log 9). The accepted
level until the first sample is the model's (log 5), host memory is not the part's (log 18), and a bus write under way is
left to the bus (log 17). That an advance takes no noted window end first is the model's too (log 11). -/
def Obligations.HardwareResetInitialisationAndStampClock : Prop :=
  (∀ s : State, Completes (exec .hardwareReset s) fun u =>
      EverythingFreed u ∧ u.phase = .hardwareReset ∧ u.intEnable = false ∧ u.badIndex = false ∧ u.crBaseLo = 0 ∧
        u.crBaseHi = 0 ∧ u.crJr0Size = 0 ∧ u.crRr0Size = 0 ∧ u.stamp = 0 ∧ u.refPhase = 0 ∧ u.pins = 0 ∧
        u.strays = straysAfter s ∧
        (∀ l, (u.line l).inverted = false ∧ (u.line l).width = 4 ∧ (u.line l).runCount = 0) ∧
        u.hostMemory = s.hostMemory) ∧
    (∀ (s : State) (levels : BitVec 16), s.phase = .hardwareReset → Completes (exec (.resetNRise levels) s) fun u =>
      u = { s with phase := .initialising, lines := u.lines } ∧
        ∀ l : LineId, u.line l = { s.line l with accepted := levels.getLsbD l.val, runCount := 0 }) ∧
    (∀ (s : State) (levels : BitVec 16), s.phase ≠ .hardwareReset → exec (.resetNRise levels) s = .next s) ∧
    (∀ s : State, s.phase = .initialising → exec .initialisationEnd s = .next { s with phase := .ready }) ∧
    (∀ s : State, s.phase ≠ .initialising → exec .initialisationEnd s = .next s) ∧
    ∀ s : State,
      (s.phase ≠ .hardwareReset → exec .stampClockAdvance s = .next { s with stamp := s.stamp + 1 }) ∧
        (s.phase = .hardwareReset → exec .stampClockAdvance s = .next s) ∧ (s.stamp = 4294967295 → s.stamp + 1 = 0)
end

