-- ==== Sys2Proof/Laws/State.lean ====
section
/-!
SUPPORT. The entry updates of State, said once: what a replaced entry reads as, that every other entry and every other
field is kept, and that a read depends on its own table only.
-/

namespace Sys2Proof.Machine

/-! ### setSession -/

/-- The replaced entry reads as the new one and every other as before. -/
theorem State.session_setSession (s : State) (i j : SessionId) (e : Session) :
    (s.setSession i e).session j = if j = i then e else s.session j := by
  simp only [State.session, State.setSession, Fin.getElem_fin, Vector.getElem_set, Fin.ext_iff, eq_comm]

/-- The replaced entry. -/
@[simp] theorem State.session_setSession_same (s : State) (i : SessionId) (e : Session) : (s.setSession i e).session i = e := by
  simp [State.session_setSession]

/-- Another entry. -/
theorem State.session_setSession_ne (s : State) (i j : SessionId) (e : Session) (h : j ≠ i) : (s.setSession i e).session j = s.session j := by
  simp [State.session_setSession, h]

/-- A read of this table depends on the table only. -/
theorem State.session_congr (s t : State) (h : t.sessions = s.sessions) (i : SessionId) : t.session i = s.session i := by
  simp only [State.session, h]

/-- Equal entries are equal tables. -/
theorem State.sessions_ext (s t : State) (h : ∀ i, t.session i = s.session i) : t.sessions = s.sessions :=
  Vector.ext fun n hn => h ⟨n, hn⟩

@[simp] theorem State.wait_setSession (s : State) (i : SessionId) (e : Session) (j : WaitId) :
    (s.setSession i e).wait j = s.wait j := rfl

@[simp] theorem State.line_setSession (s : State) (i : SessionId) (e : Session) (j : LineId) :
    (s.setSession i e).line j = s.line j := rfl

@[simp] theorem State.output_setSession (s : State) (i : SessionId) (e : Session) (j : OutputId) :
    (s.setSession i e).output j = s.output j := rfl

@[simp] theorem State.jobRing_setSession (s : State) (i : SessionId) (e : Session) (j : JobRingId) :
    (s.setSession i e).jobRing j = s.jobRing j := rfl

@[simp] theorem State.reportRing_setSession (s : State) (i : SessionId) (e : Session) (j : ReportRingId) :
    (s.setSession i e).reportRing j = s.reportRing j := rfl

@[simp] theorem State.setSession_pending (s : State) (i : SessionId) (e : Session) : (s.setSession i e).pending = s.pending := rfl

@[simp] theorem State.setSession_phase (s : State) (i : SessionId) (e : Session) : (s.setSession i e).phase = s.phase := rfl

@[simp] theorem State.setSession_run (s : State) (i : SessionId) (e : Session) : (s.setSession i e).run = s.run := rfl

@[simp] theorem State.setSession_intEnable (s : State) (i : SessionId) (e : Session) : (s.setSession i e).intEnable = s.intEnable := rfl

@[simp] theorem State.setSession_fatalCause (s : State) (i : SessionId) (e : Session) : (s.setSession i e).fatalCause = s.fatalCause := rfl

@[simp] theorem State.setSession_badIndex (s : State) (i : SessionId) (e : Session) : (s.setSession i e).badIndex = s.badIndex := rfl

@[simp] theorem State.setSession_crBaseLo (s : State) (i : SessionId) (e : Session) : (s.setSession i e).crBaseLo = s.crBaseLo := rfl

@[simp] theorem State.setSession_crBaseHi (s : State) (i : SessionId) (e : Session) : (s.setSession i e).crBaseHi = s.crBaseHi := rfl

@[simp] theorem State.setSession_crJr0Size (s : State) (i : SessionId) (e : Session) : (s.setSession i e).crJr0Size = s.crJr0Size := rfl

@[simp] theorem State.setSession_crRr0Size (s : State) (i : SessionId) (e : Session) : (s.setSession i e).crRr0Size = s.crRr0Size := rfl

@[simp] theorem State.setSession_intPending (s : State) (i : SessionId) (e : Session) : (s.setSession i e).intPending = s.intPending := rfl

@[simp] theorem State.setSession_stamp (s : State) (i : SessionId) (e : Session) : (s.setSession i e).stamp = s.stamp := rfl

@[simp] theorem State.setSession_refPhase (s : State) (i : SessionId) (e : Session) : (s.setSession i e).refPhase = s.refPhase := rfl

@[simp] theorem State.setSession_lines (s : State) (i : SessionId) (e : Session) : (s.setSession i e).lines = s.lines := rfl

@[simp] theorem State.setSession_outputs (s : State) (i : SessionId) (e : Session) : (s.setSession i e).outputs = s.outputs := rfl

@[simp] theorem State.setSession_pins (s : State) (i : SessionId) (e : Session) : (s.setSession i e).pins = s.pins := rfl

@[simp] theorem State.setSession_waits (s : State) (i : SessionId) (e : Session) : (s.setSession i e).waits = s.waits := rfl

@[simp] theorem State.setSession_jobRings (s : State) (i : SessionId) (e : Session) : (s.setSession i e).jobRings = s.jobRings := rfl

@[simp] theorem State.setSession_turn (s : State) (i : SessionId) (e : Session) : (s.setSession i e).turn = s.turn := rfl

@[simp] theorem State.setSession_turnLeft (s : State) (i : SessionId) (e : Session) : (s.setSession i e).turnLeft = s.turnLeft := rfl

@[simp] theorem State.setSession_taking (s : State) (i : SessionId) (e : Session) : (s.setSession i e).taking = s.taking := rfl

@[simp] theorem State.setSession_fetches (s : State) (i : SessionId) (e : Session) : (s.setSession i e).fetches = s.fetches := rfl

@[simp] theorem State.setSession_reportRings (s : State) (i : SessionId) (e : Session) : (s.setSession i e).reportRings = s.reportRings := rfl

@[simp] theorem State.setSession_rr0Lost (s : State) (i : SessionId) (e : Session) : (s.setSession i e).rr0Lost = s.rr0Lost := rfl

@[simp] theorem State.setSession_strays (s : State) (i : SessionId) (e : Session) : (s.setSession i e).strays = s.strays := rfl

@[simp] theorem State.setSession_hostMemory (s : State) (i : SessionId) (e : Session) : (s.setSession i e).hostMemory = s.hostMemory := rfl

/-! ### setWait -/

/-- The replaced entry reads as the new one and every other as before. -/
theorem State.wait_setWait (s : State) (i j : WaitId) (e : Option WaitEntry) :
    (s.setWait i e).wait j = if j = i then e else s.wait j := by
  simp only [State.wait, State.setWait, Fin.getElem_fin, Vector.getElem_set, Fin.ext_iff, eq_comm]

/-- The replaced entry. -/
@[simp] theorem State.wait_setWait_same (s : State) (i : WaitId) (e : Option WaitEntry) : (s.setWait i e).wait i = e := by
  simp [State.wait_setWait]

/-- Another entry. -/
theorem State.wait_setWait_ne (s : State) (i j : WaitId) (e : Option WaitEntry) (h : j ≠ i) : (s.setWait i e).wait j = s.wait j := by
  simp [State.wait_setWait, h]

/-- A read of this table depends on the table only. -/
theorem State.wait_congr (s t : State) (h : t.waits = s.waits) (i : WaitId) : t.wait i = s.wait i := by
  simp only [State.wait, h]

/-- Equal entries are equal tables. -/
theorem State.waits_ext (s t : State) (h : ∀ i, t.wait i = s.wait i) : t.waits = s.waits :=
  Vector.ext fun n hn => h ⟨n, hn⟩

@[simp] theorem State.session_setWait (s : State) (i : WaitId) (e : Option WaitEntry) (j : SessionId) :
    (s.setWait i e).session j = s.session j := rfl

@[simp] theorem State.line_setWait (s : State) (i : WaitId) (e : Option WaitEntry) (j : LineId) :
    (s.setWait i e).line j = s.line j := rfl

@[simp] theorem State.output_setWait (s : State) (i : WaitId) (e : Option WaitEntry) (j : OutputId) :
    (s.setWait i e).output j = s.output j := rfl

@[simp] theorem State.jobRing_setWait (s : State) (i : WaitId) (e : Option WaitEntry) (j : JobRingId) :
    (s.setWait i e).jobRing j = s.jobRing j := rfl

@[simp] theorem State.reportRing_setWait (s : State) (i : WaitId) (e : Option WaitEntry) (j : ReportRingId) :
    (s.setWait i e).reportRing j = s.reportRing j := rfl

@[simp] theorem State.setWait_pending (s : State) (i : WaitId) (e : Option WaitEntry) : (s.setWait i e).pending = s.pending := rfl

@[simp] theorem State.setWait_phase (s : State) (i : WaitId) (e : Option WaitEntry) : (s.setWait i e).phase = s.phase := rfl

@[simp] theorem State.setWait_run (s : State) (i : WaitId) (e : Option WaitEntry) : (s.setWait i e).run = s.run := rfl

@[simp] theorem State.setWait_intEnable (s : State) (i : WaitId) (e : Option WaitEntry) : (s.setWait i e).intEnable = s.intEnable := rfl

@[simp] theorem State.setWait_fatalCause (s : State) (i : WaitId) (e : Option WaitEntry) : (s.setWait i e).fatalCause = s.fatalCause := rfl

@[simp] theorem State.setWait_badIndex (s : State) (i : WaitId) (e : Option WaitEntry) : (s.setWait i e).badIndex = s.badIndex := rfl

@[simp] theorem State.setWait_crBaseLo (s : State) (i : WaitId) (e : Option WaitEntry) : (s.setWait i e).crBaseLo = s.crBaseLo := rfl

@[simp] theorem State.setWait_crBaseHi (s : State) (i : WaitId) (e : Option WaitEntry) : (s.setWait i e).crBaseHi = s.crBaseHi := rfl

@[simp] theorem State.setWait_crJr0Size (s : State) (i : WaitId) (e : Option WaitEntry) : (s.setWait i e).crJr0Size = s.crJr0Size := rfl

@[simp] theorem State.setWait_crRr0Size (s : State) (i : WaitId) (e : Option WaitEntry) : (s.setWait i e).crRr0Size = s.crRr0Size := rfl

@[simp] theorem State.setWait_intPending (s : State) (i : WaitId) (e : Option WaitEntry) : (s.setWait i e).intPending = s.intPending := rfl

@[simp] theorem State.setWait_stamp (s : State) (i : WaitId) (e : Option WaitEntry) : (s.setWait i e).stamp = s.stamp := rfl

@[simp] theorem State.setWait_refPhase (s : State) (i : WaitId) (e : Option WaitEntry) : (s.setWait i e).refPhase = s.refPhase := rfl

@[simp] theorem State.setWait_lines (s : State) (i : WaitId) (e : Option WaitEntry) : (s.setWait i e).lines = s.lines := rfl

@[simp] theorem State.setWait_outputs (s : State) (i : WaitId) (e : Option WaitEntry) : (s.setWait i e).outputs = s.outputs := rfl

@[simp] theorem State.setWait_pins (s : State) (i : WaitId) (e : Option WaitEntry) : (s.setWait i e).pins = s.pins := rfl

@[simp] theorem State.setWait_sessions (s : State) (i : WaitId) (e : Option WaitEntry) : (s.setWait i e).sessions = s.sessions := rfl

@[simp] theorem State.setWait_jobRings (s : State) (i : WaitId) (e : Option WaitEntry) : (s.setWait i e).jobRings = s.jobRings := rfl

@[simp] theorem State.setWait_turn (s : State) (i : WaitId) (e : Option WaitEntry) : (s.setWait i e).turn = s.turn := rfl

@[simp] theorem State.setWait_turnLeft (s : State) (i : WaitId) (e : Option WaitEntry) : (s.setWait i e).turnLeft = s.turnLeft := rfl

@[simp] theorem State.setWait_taking (s : State) (i : WaitId) (e : Option WaitEntry) : (s.setWait i e).taking = s.taking := rfl

@[simp] theorem State.setWait_fetches (s : State) (i : WaitId) (e : Option WaitEntry) : (s.setWait i e).fetches = s.fetches := rfl

@[simp] theorem State.setWait_reportRings (s : State) (i : WaitId) (e : Option WaitEntry) : (s.setWait i e).reportRings = s.reportRings := rfl

@[simp] theorem State.setWait_rr0Lost (s : State) (i : WaitId) (e : Option WaitEntry) : (s.setWait i e).rr0Lost = s.rr0Lost := rfl

@[simp] theorem State.setWait_strays (s : State) (i : WaitId) (e : Option WaitEntry) : (s.setWait i e).strays = s.strays := rfl

@[simp] theorem State.setWait_hostMemory (s : State) (i : WaitId) (e : Option WaitEntry) : (s.setWait i e).hostMemory = s.hostMemory := rfl

/-! ### setLine -/

/-- The replaced entry reads as the new one and every other as before. -/
theorem State.line_setLine (s : State) (i j : LineId) (e : InputLine) :
    (s.setLine i e).line j = if j = i then e else s.line j := by
  simp only [State.line, State.setLine, Fin.getElem_fin, Vector.getElem_set, Fin.ext_iff, eq_comm]

/-- The replaced entry. -/
@[simp] theorem State.line_setLine_same (s : State) (i : LineId) (e : InputLine) : (s.setLine i e).line i = e := by
  simp [State.line_setLine]

/-- Another entry. -/
theorem State.line_setLine_ne (s : State) (i j : LineId) (e : InputLine) (h : j ≠ i) : (s.setLine i e).line j = s.line j := by
  simp [State.line_setLine, h]

/-- A read of this table depends on the table only. -/
theorem State.line_congr (s t : State) (h : t.lines = s.lines) (i : LineId) : t.line i = s.line i := by
  simp only [State.line, h]

/-- Equal entries are equal tables. -/
theorem State.lines_ext (s t : State) (h : ∀ i, t.line i = s.line i) : t.lines = s.lines :=
  Vector.ext fun n hn => h ⟨n, hn⟩

@[simp] theorem State.session_setLine (s : State) (i : LineId) (e : InputLine) (j : SessionId) :
    (s.setLine i e).session j = s.session j := rfl

@[simp] theorem State.wait_setLine (s : State) (i : LineId) (e : InputLine) (j : WaitId) :
    (s.setLine i e).wait j = s.wait j := rfl

@[simp] theorem State.output_setLine (s : State) (i : LineId) (e : InputLine) (j : OutputId) :
    (s.setLine i e).output j = s.output j := rfl

@[simp] theorem State.jobRing_setLine (s : State) (i : LineId) (e : InputLine) (j : JobRingId) :
    (s.setLine i e).jobRing j = s.jobRing j := rfl

@[simp] theorem State.reportRing_setLine (s : State) (i : LineId) (e : InputLine) (j : ReportRingId) :
    (s.setLine i e).reportRing j = s.reportRing j := rfl

@[simp] theorem State.setLine_pending (s : State) (i : LineId) (e : InputLine) : (s.setLine i e).pending = s.pending := rfl

@[simp] theorem State.setLine_phase (s : State) (i : LineId) (e : InputLine) : (s.setLine i e).phase = s.phase := rfl

@[simp] theorem State.setLine_run (s : State) (i : LineId) (e : InputLine) : (s.setLine i e).run = s.run := rfl

@[simp] theorem State.setLine_intEnable (s : State) (i : LineId) (e : InputLine) : (s.setLine i e).intEnable = s.intEnable := rfl

@[simp] theorem State.setLine_fatalCause (s : State) (i : LineId) (e : InputLine) : (s.setLine i e).fatalCause = s.fatalCause := rfl

@[simp] theorem State.setLine_badIndex (s : State) (i : LineId) (e : InputLine) : (s.setLine i e).badIndex = s.badIndex := rfl

@[simp] theorem State.setLine_crBaseLo (s : State) (i : LineId) (e : InputLine) : (s.setLine i e).crBaseLo = s.crBaseLo := rfl

@[simp] theorem State.setLine_crBaseHi (s : State) (i : LineId) (e : InputLine) : (s.setLine i e).crBaseHi = s.crBaseHi := rfl

@[simp] theorem State.setLine_crJr0Size (s : State) (i : LineId) (e : InputLine) : (s.setLine i e).crJr0Size = s.crJr0Size := rfl

@[simp] theorem State.setLine_crRr0Size (s : State) (i : LineId) (e : InputLine) : (s.setLine i e).crRr0Size = s.crRr0Size := rfl

@[simp] theorem State.setLine_intPending (s : State) (i : LineId) (e : InputLine) : (s.setLine i e).intPending = s.intPending := rfl

@[simp] theorem State.setLine_stamp (s : State) (i : LineId) (e : InputLine) : (s.setLine i e).stamp = s.stamp := rfl

@[simp] theorem State.setLine_refPhase (s : State) (i : LineId) (e : InputLine) : (s.setLine i e).refPhase = s.refPhase := rfl

@[simp] theorem State.setLine_outputs (s : State) (i : LineId) (e : InputLine) : (s.setLine i e).outputs = s.outputs := rfl

@[simp] theorem State.setLine_pins (s : State) (i : LineId) (e : InputLine) : (s.setLine i e).pins = s.pins := rfl

@[simp] theorem State.setLine_sessions (s : State) (i : LineId) (e : InputLine) : (s.setLine i e).sessions = s.sessions := rfl

@[simp] theorem State.setLine_waits (s : State) (i : LineId) (e : InputLine) : (s.setLine i e).waits = s.waits := rfl

@[simp] theorem State.setLine_jobRings (s : State) (i : LineId) (e : InputLine) : (s.setLine i e).jobRings = s.jobRings := rfl

@[simp] theorem State.setLine_turn (s : State) (i : LineId) (e : InputLine) : (s.setLine i e).turn = s.turn := rfl

@[simp] theorem State.setLine_turnLeft (s : State) (i : LineId) (e : InputLine) : (s.setLine i e).turnLeft = s.turnLeft := rfl

@[simp] theorem State.setLine_taking (s : State) (i : LineId) (e : InputLine) : (s.setLine i e).taking = s.taking := rfl

@[simp] theorem State.setLine_fetches (s : State) (i : LineId) (e : InputLine) : (s.setLine i e).fetches = s.fetches := rfl

@[simp] theorem State.setLine_reportRings (s : State) (i : LineId) (e : InputLine) : (s.setLine i e).reportRings = s.reportRings := rfl

@[simp] theorem State.setLine_rr0Lost (s : State) (i : LineId) (e : InputLine) : (s.setLine i e).rr0Lost = s.rr0Lost := rfl

@[simp] theorem State.setLine_strays (s : State) (i : LineId) (e : InputLine) : (s.setLine i e).strays = s.strays := rfl

@[simp] theorem State.setLine_hostMemory (s : State) (i : LineId) (e : InputLine) : (s.setLine i e).hostMemory = s.hostMemory := rfl

/-! ### setOutput -/

/-- The replaced entry reads as the new one and every other as before. -/
theorem State.output_setOutput (s : State) (i j : OutputId) (e : OutputLine) :
    (s.setOutput i e).output j = if j = i then e else s.output j := by
  simp only [State.output, State.setOutput, Fin.getElem_fin, Vector.getElem_set, Fin.ext_iff, eq_comm]

/-- The replaced entry. -/
@[simp] theorem State.output_setOutput_same (s : State) (i : OutputId) (e : OutputLine) : (s.setOutput i e).output i = e := by
  simp [State.output_setOutput]

/-- Another entry. -/
theorem State.output_setOutput_ne (s : State) (i j : OutputId) (e : OutputLine) (h : j ≠ i) : (s.setOutput i e).output j = s.output j := by
  simp [State.output_setOutput, h]

/-- A read of this table depends on the table only. -/
theorem State.output_congr (s t : State) (h : t.outputs = s.outputs) (i : OutputId) : t.output i = s.output i := by
  simp only [State.output, h]

/-- Equal entries are equal tables. -/
theorem State.outputs_ext (s t : State) (h : ∀ i, t.output i = s.output i) : t.outputs = s.outputs :=
  Vector.ext fun n hn => h ⟨n, hn⟩

@[simp] theorem State.session_setOutput (s : State) (i : OutputId) (e : OutputLine) (j : SessionId) :
    (s.setOutput i e).session j = s.session j := rfl

@[simp] theorem State.wait_setOutput (s : State) (i : OutputId) (e : OutputLine) (j : WaitId) :
    (s.setOutput i e).wait j = s.wait j := rfl

@[simp] theorem State.line_setOutput (s : State) (i : OutputId) (e : OutputLine) (j : LineId) :
    (s.setOutput i e).line j = s.line j := rfl

@[simp] theorem State.jobRing_setOutput (s : State) (i : OutputId) (e : OutputLine) (j : JobRingId) :
    (s.setOutput i e).jobRing j = s.jobRing j := rfl

@[simp] theorem State.reportRing_setOutput (s : State) (i : OutputId) (e : OutputLine) (j : ReportRingId) :
    (s.setOutput i e).reportRing j = s.reportRing j := rfl

@[simp] theorem State.setOutput_pending (s : State) (i : OutputId) (e : OutputLine) : (s.setOutput i e).pending = s.pending := rfl

@[simp] theorem State.setOutput_phase (s : State) (i : OutputId) (e : OutputLine) : (s.setOutput i e).phase = s.phase := rfl

@[simp] theorem State.setOutput_run (s : State) (i : OutputId) (e : OutputLine) : (s.setOutput i e).run = s.run := rfl

@[simp] theorem State.setOutput_intEnable (s : State) (i : OutputId) (e : OutputLine) : (s.setOutput i e).intEnable = s.intEnable := rfl

@[simp] theorem State.setOutput_fatalCause (s : State) (i : OutputId) (e : OutputLine) : (s.setOutput i e).fatalCause = s.fatalCause := rfl

@[simp] theorem State.setOutput_badIndex (s : State) (i : OutputId) (e : OutputLine) : (s.setOutput i e).badIndex = s.badIndex := rfl

@[simp] theorem State.setOutput_crBaseLo (s : State) (i : OutputId) (e : OutputLine) : (s.setOutput i e).crBaseLo = s.crBaseLo := rfl

@[simp] theorem State.setOutput_crBaseHi (s : State) (i : OutputId) (e : OutputLine) : (s.setOutput i e).crBaseHi = s.crBaseHi := rfl

@[simp] theorem State.setOutput_crJr0Size (s : State) (i : OutputId) (e : OutputLine) : (s.setOutput i e).crJr0Size = s.crJr0Size := rfl

@[simp] theorem State.setOutput_crRr0Size (s : State) (i : OutputId) (e : OutputLine) : (s.setOutput i e).crRr0Size = s.crRr0Size := rfl

@[simp] theorem State.setOutput_intPending (s : State) (i : OutputId) (e : OutputLine) : (s.setOutput i e).intPending = s.intPending := rfl

@[simp] theorem State.setOutput_stamp (s : State) (i : OutputId) (e : OutputLine) : (s.setOutput i e).stamp = s.stamp := rfl

@[simp] theorem State.setOutput_refPhase (s : State) (i : OutputId) (e : OutputLine) : (s.setOutput i e).refPhase = s.refPhase := rfl

@[simp] theorem State.setOutput_lines (s : State) (i : OutputId) (e : OutputLine) : (s.setOutput i e).lines = s.lines := rfl

@[simp] theorem State.setOutput_pins (s : State) (i : OutputId) (e : OutputLine) : (s.setOutput i e).pins = s.pins := rfl

@[simp] theorem State.setOutput_sessions (s : State) (i : OutputId) (e : OutputLine) : (s.setOutput i e).sessions = s.sessions := rfl

@[simp] theorem State.setOutput_waits (s : State) (i : OutputId) (e : OutputLine) : (s.setOutput i e).waits = s.waits := rfl

@[simp] theorem State.setOutput_jobRings (s : State) (i : OutputId) (e : OutputLine) : (s.setOutput i e).jobRings = s.jobRings := rfl

@[simp] theorem State.setOutput_turn (s : State) (i : OutputId) (e : OutputLine) : (s.setOutput i e).turn = s.turn := rfl

@[simp] theorem State.setOutput_turnLeft (s : State) (i : OutputId) (e : OutputLine) : (s.setOutput i e).turnLeft = s.turnLeft := rfl

@[simp] theorem State.setOutput_taking (s : State) (i : OutputId) (e : OutputLine) : (s.setOutput i e).taking = s.taking := rfl

@[simp] theorem State.setOutput_fetches (s : State) (i : OutputId) (e : OutputLine) : (s.setOutput i e).fetches = s.fetches := rfl

@[simp] theorem State.setOutput_reportRings (s : State) (i : OutputId) (e : OutputLine) : (s.setOutput i e).reportRings = s.reportRings := rfl

@[simp] theorem State.setOutput_rr0Lost (s : State) (i : OutputId) (e : OutputLine) : (s.setOutput i e).rr0Lost = s.rr0Lost := rfl

@[simp] theorem State.setOutput_strays (s : State) (i : OutputId) (e : OutputLine) : (s.setOutput i e).strays = s.strays := rfl

@[simp] theorem State.setOutput_hostMemory (s : State) (i : OutputId) (e : OutputLine) : (s.setOutput i e).hostMemory = s.hostMemory := rfl

/-! ### setJobRing -/

/-- The replaced entry reads as the new one and every other as before. -/
theorem State.jobRing_setJobRing (s : State) (i j : JobRingId) (e : JobRing) :
    (s.setJobRing i e).jobRing j = if j = i then e else s.jobRing j := by
  simp only [State.jobRing, State.setJobRing, Fin.getElem_fin, Vector.getElem_set, Fin.ext_iff, eq_comm]

/-- The replaced entry. -/
@[simp] theorem State.jobRing_setJobRing_same (s : State) (i : JobRingId) (e : JobRing) : (s.setJobRing i e).jobRing i = e := by
  simp [State.jobRing_setJobRing]

/-- Another entry. -/
theorem State.jobRing_setJobRing_ne (s : State) (i j : JobRingId) (e : JobRing) (h : j ≠ i) : (s.setJobRing i e).jobRing j = s.jobRing j := by
  simp [State.jobRing_setJobRing, h]

/-- A read of this table depends on the table only. -/
theorem State.jobRing_congr (s t : State) (h : t.jobRings = s.jobRings) (i : JobRingId) : t.jobRing i = s.jobRing i := by
  simp only [State.jobRing, h]

/-- Equal entries are equal tables. -/
theorem State.jobRings_ext (s t : State) (h : ∀ i, t.jobRing i = s.jobRing i) : t.jobRings = s.jobRings :=
  Vector.ext fun n hn => h ⟨n, hn⟩

@[simp] theorem State.session_setJobRing (s : State) (i : JobRingId) (e : JobRing) (j : SessionId) :
    (s.setJobRing i e).session j = s.session j := rfl

@[simp] theorem State.wait_setJobRing (s : State) (i : JobRingId) (e : JobRing) (j : WaitId) :
    (s.setJobRing i e).wait j = s.wait j := rfl

@[simp] theorem State.line_setJobRing (s : State) (i : JobRingId) (e : JobRing) (j : LineId) :
    (s.setJobRing i e).line j = s.line j := rfl

@[simp] theorem State.output_setJobRing (s : State) (i : JobRingId) (e : JobRing) (j : OutputId) :
    (s.setJobRing i e).output j = s.output j := rfl

@[simp] theorem State.reportRing_setJobRing (s : State) (i : JobRingId) (e : JobRing) (j : ReportRingId) :
    (s.setJobRing i e).reportRing j = s.reportRing j := rfl

@[simp] theorem State.setJobRing_pending (s : State) (i : JobRingId) (e : JobRing) : (s.setJobRing i e).pending = s.pending := rfl

@[simp] theorem State.setJobRing_phase (s : State) (i : JobRingId) (e : JobRing) : (s.setJobRing i e).phase = s.phase := rfl

@[simp] theorem State.setJobRing_run (s : State) (i : JobRingId) (e : JobRing) : (s.setJobRing i e).run = s.run := rfl

@[simp] theorem State.setJobRing_intEnable (s : State) (i : JobRingId) (e : JobRing) : (s.setJobRing i e).intEnable = s.intEnable := rfl

@[simp] theorem State.setJobRing_fatalCause (s : State) (i : JobRingId) (e : JobRing) : (s.setJobRing i e).fatalCause = s.fatalCause := rfl

@[simp] theorem State.setJobRing_badIndex (s : State) (i : JobRingId) (e : JobRing) : (s.setJobRing i e).badIndex = s.badIndex := rfl

@[simp] theorem State.setJobRing_crBaseLo (s : State) (i : JobRingId) (e : JobRing) : (s.setJobRing i e).crBaseLo = s.crBaseLo := rfl

@[simp] theorem State.setJobRing_crBaseHi (s : State) (i : JobRingId) (e : JobRing) : (s.setJobRing i e).crBaseHi = s.crBaseHi := rfl

@[simp] theorem State.setJobRing_crJr0Size (s : State) (i : JobRingId) (e : JobRing) : (s.setJobRing i e).crJr0Size = s.crJr0Size := rfl

@[simp] theorem State.setJobRing_crRr0Size (s : State) (i : JobRingId) (e : JobRing) : (s.setJobRing i e).crRr0Size = s.crRr0Size := rfl

@[simp] theorem State.setJobRing_intPending (s : State) (i : JobRingId) (e : JobRing) : (s.setJobRing i e).intPending = s.intPending := rfl

@[simp] theorem State.setJobRing_stamp (s : State) (i : JobRingId) (e : JobRing) : (s.setJobRing i e).stamp = s.stamp := rfl

@[simp] theorem State.setJobRing_refPhase (s : State) (i : JobRingId) (e : JobRing) : (s.setJobRing i e).refPhase = s.refPhase := rfl

@[simp] theorem State.setJobRing_lines (s : State) (i : JobRingId) (e : JobRing) : (s.setJobRing i e).lines = s.lines := rfl

@[simp] theorem State.setJobRing_outputs (s : State) (i : JobRingId) (e : JobRing) : (s.setJobRing i e).outputs = s.outputs := rfl

@[simp] theorem State.setJobRing_pins (s : State) (i : JobRingId) (e : JobRing) : (s.setJobRing i e).pins = s.pins := rfl

@[simp] theorem State.setJobRing_sessions (s : State) (i : JobRingId) (e : JobRing) : (s.setJobRing i e).sessions = s.sessions := rfl

@[simp] theorem State.setJobRing_waits (s : State) (i : JobRingId) (e : JobRing) : (s.setJobRing i e).waits = s.waits := rfl

@[simp] theorem State.setJobRing_turn (s : State) (i : JobRingId) (e : JobRing) : (s.setJobRing i e).turn = s.turn := rfl

@[simp] theorem State.setJobRing_turnLeft (s : State) (i : JobRingId) (e : JobRing) : (s.setJobRing i e).turnLeft = s.turnLeft := rfl

@[simp] theorem State.setJobRing_taking (s : State) (i : JobRingId) (e : JobRing) : (s.setJobRing i e).taking = s.taking := rfl

@[simp] theorem State.setJobRing_fetches (s : State) (i : JobRingId) (e : JobRing) : (s.setJobRing i e).fetches = s.fetches := rfl

@[simp] theorem State.setJobRing_reportRings (s : State) (i : JobRingId) (e : JobRing) : (s.setJobRing i e).reportRings = s.reportRings := rfl

@[simp] theorem State.setJobRing_rr0Lost (s : State) (i : JobRingId) (e : JobRing) : (s.setJobRing i e).rr0Lost = s.rr0Lost := rfl

@[simp] theorem State.setJobRing_strays (s : State) (i : JobRingId) (e : JobRing) : (s.setJobRing i e).strays = s.strays := rfl

@[simp] theorem State.setJobRing_hostMemory (s : State) (i : JobRingId) (e : JobRing) : (s.setJobRing i e).hostMemory = s.hostMemory := rfl

/-! ### setReportRing -/

/-- The replaced entry reads as the new one and every other as before. -/
theorem State.reportRing_setReportRing (s : State) (i j : ReportRingId) (e : ReportRing) :
    (s.setReportRing i e).reportRing j = if j = i then e else s.reportRing j := by
  simp only [State.reportRing, State.setReportRing, Fin.getElem_fin, Vector.getElem_set, Fin.ext_iff, eq_comm]

/-- The replaced entry. -/
@[simp] theorem State.reportRing_setReportRing_same (s : State) (i : ReportRingId) (e : ReportRing) : (s.setReportRing i e).reportRing i = e := by
  simp [State.reportRing_setReportRing]

/-- Another entry. -/
theorem State.reportRing_setReportRing_ne (s : State) (i j : ReportRingId) (e : ReportRing) (h : j ≠ i) : (s.setReportRing i e).reportRing j = s.reportRing j := by
  simp [State.reportRing_setReportRing, h]

/-- A read of this table depends on the table only. -/
theorem State.reportRing_congr (s t : State) (h : t.reportRings = s.reportRings) (i : ReportRingId) : t.reportRing i = s.reportRing i := by
  simp only [State.reportRing, h]

/-- Equal entries are equal tables. -/
theorem State.reportRings_ext (s t : State) (h : ∀ i, t.reportRing i = s.reportRing i) : t.reportRings = s.reportRings :=
  Vector.ext fun n hn => h ⟨n, hn⟩

@[simp] theorem State.session_setReportRing (s : State) (i : ReportRingId) (e : ReportRing) (j : SessionId) :
    (s.setReportRing i e).session j = s.session j := rfl

@[simp] theorem State.wait_setReportRing (s : State) (i : ReportRingId) (e : ReportRing) (j : WaitId) :
    (s.setReportRing i e).wait j = s.wait j := rfl

@[simp] theorem State.line_setReportRing (s : State) (i : ReportRingId) (e : ReportRing) (j : LineId) :
    (s.setReportRing i e).line j = s.line j := rfl

@[simp] theorem State.output_setReportRing (s : State) (i : ReportRingId) (e : ReportRing) (j : OutputId) :
    (s.setReportRing i e).output j = s.output j := rfl

@[simp] theorem State.jobRing_setReportRing (s : State) (i : ReportRingId) (e : ReportRing) (j : JobRingId) :
    (s.setReportRing i e).jobRing j = s.jobRing j := rfl

@[simp] theorem State.setReportRing_pending (s : State) (i : ReportRingId) (e : ReportRing) : (s.setReportRing i e).pending = s.pending := rfl

@[simp] theorem State.setReportRing_phase (s : State) (i : ReportRingId) (e : ReportRing) : (s.setReportRing i e).phase = s.phase := rfl

@[simp] theorem State.setReportRing_run (s : State) (i : ReportRingId) (e : ReportRing) : (s.setReportRing i e).run = s.run := rfl

@[simp] theorem State.setReportRing_intEnable (s : State) (i : ReportRingId) (e : ReportRing) : (s.setReportRing i e).intEnable = s.intEnable := rfl

@[simp] theorem State.setReportRing_fatalCause (s : State) (i : ReportRingId) (e : ReportRing) : (s.setReportRing i e).fatalCause = s.fatalCause := rfl

@[simp] theorem State.setReportRing_badIndex (s : State) (i : ReportRingId) (e : ReportRing) : (s.setReportRing i e).badIndex = s.badIndex := rfl

@[simp] theorem State.setReportRing_crBaseLo (s : State) (i : ReportRingId) (e : ReportRing) : (s.setReportRing i e).crBaseLo = s.crBaseLo := rfl

@[simp] theorem State.setReportRing_crBaseHi (s : State) (i : ReportRingId) (e : ReportRing) : (s.setReportRing i e).crBaseHi = s.crBaseHi := rfl

@[simp] theorem State.setReportRing_crJr0Size (s : State) (i : ReportRingId) (e : ReportRing) : (s.setReportRing i e).crJr0Size = s.crJr0Size := rfl

@[simp] theorem State.setReportRing_crRr0Size (s : State) (i : ReportRingId) (e : ReportRing) : (s.setReportRing i e).crRr0Size = s.crRr0Size := rfl

@[simp] theorem State.setReportRing_intPending (s : State) (i : ReportRingId) (e : ReportRing) : (s.setReportRing i e).intPending = s.intPending := rfl

@[simp] theorem State.setReportRing_stamp (s : State) (i : ReportRingId) (e : ReportRing) : (s.setReportRing i e).stamp = s.stamp := rfl

@[simp] theorem State.setReportRing_refPhase (s : State) (i : ReportRingId) (e : ReportRing) : (s.setReportRing i e).refPhase = s.refPhase := rfl

@[simp] theorem State.setReportRing_lines (s : State) (i : ReportRingId) (e : ReportRing) : (s.setReportRing i e).lines = s.lines := rfl

@[simp] theorem State.setReportRing_outputs (s : State) (i : ReportRingId) (e : ReportRing) : (s.setReportRing i e).outputs = s.outputs := rfl

@[simp] theorem State.setReportRing_pins (s : State) (i : ReportRingId) (e : ReportRing) : (s.setReportRing i e).pins = s.pins := rfl

@[simp] theorem State.setReportRing_sessions (s : State) (i : ReportRingId) (e : ReportRing) : (s.setReportRing i e).sessions = s.sessions := rfl

@[simp] theorem State.setReportRing_waits (s : State) (i : ReportRingId) (e : ReportRing) : (s.setReportRing i e).waits = s.waits := rfl

@[simp] theorem State.setReportRing_jobRings (s : State) (i : ReportRingId) (e : ReportRing) : (s.setReportRing i e).jobRings = s.jobRings := rfl

@[simp] theorem State.setReportRing_turn (s : State) (i : ReportRingId) (e : ReportRing) : (s.setReportRing i e).turn = s.turn := rfl

@[simp] theorem State.setReportRing_turnLeft (s : State) (i : ReportRingId) (e : ReportRing) : (s.setReportRing i e).turnLeft = s.turnLeft := rfl

@[simp] theorem State.setReportRing_taking (s : State) (i : ReportRingId) (e : ReportRing) : (s.setReportRing i e).taking = s.taking := rfl

@[simp] theorem State.setReportRing_fetches (s : State) (i : ReportRingId) (e : ReportRing) : (s.setReportRing i e).fetches = s.fetches := rfl

@[simp] theorem State.setReportRing_rr0Lost (s : State) (i : ReportRingId) (e : ReportRing) : (s.setReportRing i e).rr0Lost = s.rr0Lost := rfl

@[simp] theorem State.setReportRing_strays (s : State) (i : ReportRingId) (e : ReportRing) : (s.setReportRing i e).strays = s.strays := rfl

@[simp] theorem State.setReportRing_hostMemory (s : State) (i : ReportRingId) (e : ReportRing) : (s.setReportRing i e).hostMemory = s.hostMemory := rfl

end Sys2Proof.Machine
end

