-- ==== Sys2Proof/Laws/Frames.lean ====
section
/-!
SUPPORT. What the events of sessions can reach: session entries, wait entries, output lines and report rings, and nothing
else. One lemma for each shared operation, so that no later proof unfolds one to see what it leaves alone.
-/

namespace Sys2Proof.Machine

/-- Only session entries, wait entries, output lines and report rings differ. -/
def EventFrame (s t : State) : Prop :=
  t = { s with sessions := t.sessions, waits := t.waits, outputs := t.outputs, reportRings := t.reportRings }

theorem EventFrame.refl (s : State) : EventFrame s s := rfl

theorem EventFrame.trans {s t u : State} (h : EventFrame s t) (g : EventFrame t u) : EventFrame s u := by
  unfold EventFrame at *
  rw [g, h]

theorem EventFrame.pending {s t : State} (h : EventFrame s t) : t.pending = s.pending := by rw [h]

theorem EventFrame.phase {s t : State} (h : EventFrame s t) : t.phase = s.phase := by rw [h]

theorem EventFrame.run {s t : State} (h : EventFrame s t) : t.run = s.run := by rw [h]

theorem EventFrame.intEnable {s t : State} (h : EventFrame s t) : t.intEnable = s.intEnable := by rw [h]

theorem EventFrame.fatalCause {s t : State} (h : EventFrame s t) : t.fatalCause = s.fatalCause := by rw [h]

theorem EventFrame.badIndex {s t : State} (h : EventFrame s t) : t.badIndex = s.badIndex := by rw [h]

theorem EventFrame.crBaseLo {s t : State} (h : EventFrame s t) : t.crBaseLo = s.crBaseLo := by rw [h]

theorem EventFrame.crBaseHi {s t : State} (h : EventFrame s t) : t.crBaseHi = s.crBaseHi := by rw [h]

theorem EventFrame.crJr0Size {s t : State} (h : EventFrame s t) : t.crJr0Size = s.crJr0Size := by rw [h]

theorem EventFrame.crRr0Size {s t : State} (h : EventFrame s t) : t.crRr0Size = s.crRr0Size := by rw [h]

theorem EventFrame.intPending {s t : State} (h : EventFrame s t) : t.intPending = s.intPending := by rw [h]

theorem EventFrame.stamp {s t : State} (h : EventFrame s t) : t.stamp = s.stamp := by rw [h]

theorem EventFrame.refPhase {s t : State} (h : EventFrame s t) : t.refPhase = s.refPhase := by rw [h]

theorem EventFrame.lines {s t : State} (h : EventFrame s t) : t.lines = s.lines := by rw [h]

theorem EventFrame.pins {s t : State} (h : EventFrame s t) : t.pins = s.pins := by rw [h]

theorem EventFrame.jobRings {s t : State} (h : EventFrame s t) : t.jobRings = s.jobRings := by rw [h]

theorem EventFrame.turn {s t : State} (h : EventFrame s t) : t.turn = s.turn := by rw [h]

theorem EventFrame.turnLeft {s t : State} (h : EventFrame s t) : t.turnLeft = s.turnLeft := by rw [h]

theorem EventFrame.taking {s t : State} (h : EventFrame s t) : t.taking = s.taking := by rw [h]

theorem EventFrame.fetches {s t : State} (h : EventFrame s t) : t.fetches = s.fetches := by rw [h]

theorem EventFrame.rr0Lost {s t : State} (h : EventFrame s t) : t.rr0Lost = s.rr0Lost := by rw [h]

theorem EventFrame.strays {s t : State} (h : EventFrame s t) : t.strays = s.strays := by rw [h]

theorem EventFrame.hostMemory {s t : State} (h : EventFrame s t) : t.hostMemory = s.hostMemory := by rw [h]

theorem EventFrame.jobRing {s t : State} (h : EventFrame s t) (j : JobRingId) : t.jobRing j = s.jobRing j :=
  State.jobRing_congr s t h.jobRings j

theorem EventFrame.line {s t : State} (h : EventFrame s t) (l : LineId) : t.line l = s.line l :=
  State.line_congr s t h.lines l

theorem EventFrame.level {s t : State} (h : EventFrame s t) (l : LineId) : t.level l = s.level l := by
  simp only [State.level, h.line]

/-! ### Updates -/

theorem eventFrame_setSession (s : State) (i : SessionId) (e : Session) : EventFrame s (s.setSession i e) := rfl

theorem eventFrame_updSession (s : State) (i : SessionId) (f : Session → Session) :
    EventFrame s (s.updSession i f) := rfl

theorem eventFrame_setWait (s : State) (w : WaitId) (e : Option WaitEntry) : EventFrame s (s.setWait w e) := rfl

theorem eventFrame_setOutput (s : State) (l : OutputId) (e : OutputLine) : EventFrame s (s.setOutput l e) := rfl

theorem eventFrame_setReportRing (s : State) (q : ReportRingId) (e : ReportRing) :
    EventFrame s (s.setReportRing q e) := rfl

theorem eventFrame_updReportRing (s : State) (q : ReportRingId) (f : ReportRing → ReportRing) :
    EventFrame s (s.updReportRing q f) := rfl

/-! ### Records and waits -/

theorem eventFrame_handJob (q : ReportRingId) (rec : ReportRecord) (s : State) : EventFrame s (handJob q rec s) := by
  unfold handJob
  split <;> rfl

theorem eventFrame_returnReservation (q : ReportRingId) (s : State) : EventFrame s (returnReservation q s) := by
  unfold returnReservation
  split <;> rfl

theorem eventFrame_postRecord (i : SessionId) (kind : UnsolicitedKind) (status : Status) (index value : Nat)
    (flags : RecordFlags) (s : State) : EventFrame s (postRecord i kind status index value flags s) := by
  unfold postRecord
  dsimp only
  repeat' split
  all_goals rfl

theorem eventFrame_freeWait (w : WaitId) (s : State) : EventFrame s (freeWait w s) := by
  unfold freeWait
  split <;> rfl

theorem eventFrame_completeWaitAt (w : WaitId) (status : Status) (stamp : Word32) (s : State) :
    EventFrame s (completeWaitAt w status stamp s) := by
  unfold completeWaitAt
  split
  · rfl
  · exact (eventFrame_freeWait w s).trans (eventFrame_handJob _ _ _)

theorem eventFrame_completeWait (w : WaitId) (status : Status) (s : State) : EventFrame s (completeWait w status s) :=
  eventFrame_completeWaitAt w status s.stamp s

theorem eventFrame_completeList (choose : WaitCond → Option Status) (l : List WaitId) (s : State) :
    EventFrame s (completeList choose l s) := by
  induction l generalizing s with
  | nil => rfl
  | cons w rest ih =>
    simp only [completeList]
    repeat' split
    · exact ih s
    · exact ih s
    · exact (eventFrame_completeWait w _ s).trans (ih _)

theorem eventFrame_completeWaits (i : SessionId) (choose : WaitCond → Option Status) (s : State) :
    EventFrame s (completeWaits i choose s) := eventFrame_completeList choose _ s

theorem eventFrame_meetWaits (i : SessionId) (met : WaitCond → Bool) (s : State) : EventFrame s (meetWaits i met s) :=
  eventFrame_completeWaits i _ s

theorem eventFrame_discardWait (w : WaitId) (s : State) : EventFrame s (discardWait w s) := by
  unfold discardWait
  split
  · rfl
  · exact (eventFrame_freeWait w s).trans (eventFrame_returnReservation _ _)

theorem eventFrame_discardWaits (l : List WaitId) (s : State) : EventFrame s (discardWaits l s) := by
  induction l generalizing s with
  | nil => rfl
  | cons w rest ih => exact (eventFrame_discardWait w s).trans (ih _)

theorem eventFrame_cancelList (l : List WaitId) (s : State) : EventFrame s (cancelList l s) := by
  induction l generalizing s with
  | nil => rfl
  | cons w rest ih => exact (eventFrame_completeWait w .cancelled s).trans (ih _)

theorem eventFrame_lowerWindows (l : List WaitId) (s : State) : EventFrame s (lowerWindows l s) := by
  induction l generalizing s with
  | nil => rfl
  | cons w rest ih =>
    simp only [lowerWindows]
    repeat' split
    · exact ((eventFrame_setWait s w _).trans (eventFrame_completeWait w .success _)).trans (ih _)
    · exact (eventFrame_setWait s w _).trans (ih _)
    · exact ih s
    · exact ih s

theorem eventFrame_handMarks (i : SessionId) (s : State) : EventFrame s (handMarks i s) :=
  eventFrame_updSession s i _

/-! ### Steps -/

theorem eventFrame_hitActions (i : SessionId) (dir : Direction) (index : Nat) (a : Actions) (s : State) :
    EventFrame s (hitActions i dir index a s) := by
  have h1 : EventFrame s (if a.latch then latchAction i s else s) := by split <;> rfl
  have h2 : ∀ t, EventFrame t (if a.report then reportAction i dir index t else t) := by
    intro t
    split
    · exact eventFrame_postRecord _ _ _ _ _ _ _
    · rfl
  have h3 : ∀ t, EventFrame t (match a.output with | none => t | some (line, kind) => outputAction i line kind t) := by
    intro t
    split <;> rfl
  have h4 : ∀ t, EventFrame t (if a.pace then handMarks i t else t) := by
    intro t
    split
    · exact eventFrame_handMarks i t
    · rfl
  exact ((h1.trans (h2 _)).trans (h3 _)).trans (h4 _)

theorem eventFrame_changeCount (i : SessionId) (value : Nat) (s : State) : EventFrame s (changeCount i value s) :=
  (eventFrame_updSession s i _).trans (eventFrame_meetWaits i _ _)

theorem eventFrame_lateActions (i : SessionId) (a : Actions) (s : State) : EventFrame s (lateActions i a s) := by
  have h1 : EventFrame s (if a.zero then changeCount i 0 s else s) := by
    split
    · exact eventFrame_changeCount i 0 s
    · rfl
  have h2 : ∀ t : State, EventFrame t (if a.hold then t.updSession i Session.joinHost else t) := by
    intro t
    split <;> rfl
  exact h1.trans (h2 _)

theorem eventFrame_noteWindowEnd (i : SessionId) (count : Nat) (s : State) :
    EventFrame s (noteWindowEnd i count s) := by
  unfold noteWindowEnd
  split <;> rfl

theorem eventFrame_stepSession (i : SessionId) (dir : Direction) (s : State) : EventFrame s (stepSession i dir s) := by
  unfold stepSession
  dsimp only
  split
  · exact ((eventFrame_updSession s i _).trans (eventFrame_meetWaits i _ _)).trans (eventFrame_noteWindowEnd i _ _)
  · exact ((((eventFrame_updSession s i _).trans (eventFrame_hitActions i dir _ _ _)).trans
      (eventFrame_meetWaits i _ _)).trans (eventFrame_lateActions i _ _)).trans (eventFrame_noteWindowEnd i _ _)

theorem eventFrame_stepIfCounting (i : SessionId) (dir : Direction) (s : State) :
    EventFrame s (stepIfCounting i dir s) := by
  unfold stepIfCounting
  split
  · exact eventFrame_stepSession i dir s
  · rfl

theorem eventFrame_faultSession (i : SessionId) (s : State) : EventFrame s (faultSession i s) :=
  ((eventFrame_updSession s i _).trans (eventFrame_postRecord _ _ _ _ _ _ _)).trans (eventFrame_completeWaits i _ _)

theorem eventFrame_illegalStep (i : SessionId) (s : State) : EventFrame s (illegalStep i s) := by
  unfold illegalStep
  dsimp only
  split
  · exact (eventFrame_updSession s i _).trans (eventFrame_faultSession i _)
  · rfl

theorem eventFrame_pairSample (i : SessionId) (s : State) : EventFrame s (pairSample i s) := by
  have h := eventFrame_updSession s i (fun x => { x with pairRef := pairLevels (s.session i) s })
  unfold pairSample
  dsimp only
  repeat' split
  all_goals first
    | exact h
    | exact h.trans (eventFrame_illegalStep i _)
    | exact h.trans (eventFrame_stepSession i _ _)

/-! ### Windows, marks, ticks and edges -/

theorem eventFrame_postSample (i : SessionId) (s : State) : EventFrame s (postSample i s) := by
  unfold postSample
  dsimp only
  split
  · exact eventFrame_postRecord _ _ _ _ _ _ _
  · rfl

theorem eventFrame_windowEnd (i : SessionId) (s : State) : EventFrame s (windowEnd i s) :=
  (((eventFrame_postSample i s).trans (eventFrame_updSession _ i _)).trans (eventFrame_handMarks i _)).trans
    (eventFrame_lowerWindows _ _)

theorem eventFrame_settleList (l : List SessionId) (s : State) : EventFrame s (settleList l s) := by
  induction l generalizing s with
  | nil => rfl
  | cons i rest ih =>
    simp only [settleList]
    split
    · exact (eventFrame_windowEnd i s).trans (ih _)
    · exact ih s

/-- The window ends that steps have caused reach sessions, waits and report rings only. -/
theorem eventFrame_settle (s : State) : EventFrame s (settle s) := eventFrame_settleList _ s

theorem eventFrame_actOnMark (f : SessionId) (s : State) : EventFrame s (actOnMark f s) := by
  unfold actOnMark
  dsimp only
  repeat' split
  · exact eventFrame_windowEnd f s
  · rfl
  · rfl

theorem eventFrame_takeMark (f : SessionId) (s : State) : EventFrame s (takeMark f s) := by
  unfold takeMark
  repeat' split
  · rfl
  · rfl
  · exact (eventFrame_updSession s _ _).trans (eventFrame_actOnMark f _)

theorem eventFrame_takeMarks (l : List SessionId) (s : State) : EventFrame s (takeMarks l s) := by
  induction l generalizing s with
  | nil => rfl
  | cons f rest ih => exact (eventFrame_takeMark f s).trans (ih _)

theorem eventFrame_flushMarks (p : SessionId) (s : State) : EventFrame s (flushMarks p s) := eventFrame_takeMarks _ s

theorem eventFrame_releaseFollower (p f : SessionId) (s : State) : EventFrame s (releaseFollower p f s) :=
  (((eventFrame_updSession s f _).trans (eventFrame_updSession _ p _)).trans
    (eventFrame_completeWaits f _ _)).trans (eventFrame_postRecord _ _ _ _ _ _ _)

theorem eventFrame_releaseFollowers (p : SessionId) (l : List SessionId) (s : State) :
    EventFrame s (releaseFollowers p l s) := by
  induction l generalizing s with
  | nil => rfl
  | cons f rest ih => exact (eventFrame_releaseFollower p f s).trans (ih _)

theorem eventFrame_rateTick (i : SessionId) (s : State) : EventFrame s (rateTick i s) := by
  have h : EventFrame s (if (s.session i).timerExpired then windowEnd i s else s) := by
    split
    · exact eventFrame_windowEnd i s
    · rfl
  have g : ∀ t : State, EventFrame t
      (if (t.session i).windowOpen then t.updSession i (fun e => { e with elapsed := e.elapsed + 1 }) else t) := by
    intro t
    split <;> rfl
  exact h.trans (g _)

theorem eventFrame_tickSession (rate : TickRate) (i : SessionId) (s : State) :
    EventFrame s (tickSession rate i s) := by
  unfold tickSession
  dsimp only
  repeat' split
  · exact eventFrame_rateTick i s
  · exact eventFrame_stepIfCounting i .up s
  · rfl
  · exact eventFrame_stepIfCounting i .up s
  · rfl
  · rfl

theorem eventFrame_takeWindowEnd (i : SessionId) (s : State) : EventFrame s (takeWindowEnd i s) := by
  unfold takeWindowEnd
  split
  · exact eventFrame_windowEnd i s
  · rfl

theorem eventFrame_takeTurn (rate : TickRate) (t : TickTurn) (s : State) : EventFrame s (takeTurn rate t s) := by
  unfold takeTurn
  split
  · exact eventFrame_tickSession rate _ s
  · exact eventFrame_takeWindowEnd _ s
  · exact eventFrame_takeMark _ s

theorem eventFrame_tickList (rate : TickRate) (l : List TickTurn) (s : State) :
    EventFrame s (tickList rate l s) := by
  induction l generalizing s with
  | nil => rfl
  | cons t rest ih => exact (eventFrame_takeTurn rate t s).trans (ih _)

theorem eventFrame_gateEdge (i : SessionId) (rising : Bool) (s : State) : EventFrame s (gateEdge i rising s) := by
  unfold gateEdge
  dsimp only
  repeat' split
  all_goals first
    | rfl
    | exact eventFrame_windowEnd i s

theorem eventFrame_deliver (d : Delivery) (s : State) : EventFrame s (deliver d s) := by
  unfold deliver
  split
  · unfold phaseEdge
    dsimp only
    repeat' split
    all_goals first
      | rfl
      | exact eventFrame_pairSample _ s
      | exact eventFrame_stepIfCounting _ _ s
      | exact eventFrame_gateEdge _ _ s
  · unfold lineBEdge
    repeat' split
    all_goals first
      | rfl
      | exact eventFrame_stepIfCounting _ _ s
  · unfold inhibitEdge
    repeat' split
    all_goals rfl
  · exact eventFrame_takeMark _ s

theorem eventFrame_deliverList (l : List Delivery) (s : State) : EventFrame s (deliverList l s) := by
  induction l generalizing s with
  | nil => rfl
  | cons d rest ih => exact (eventFrame_deliver d s).trans (ih _)

/-- Edges at sessions reach sessions, waits, outputs and report rings only. -/
theorem eventFrame_handEdges (changed : BitVec 16) (order : List Delivery) (s : State) :
    EventFrame s (handEdges changed order s) := eventFrame_deliverList _ s

end Sys2Proof.Machine
end

