-- ==== Sys2Proof/Laws/Invariants.lean ====
section
/-!
SUPPORT. Checks that can be run for the invariants of Safety.lean on one given state: what the check accepts has the
invariant. The witnesses of the tests use them.
-/

namespace Sys2Proof.Machine

/-- A property of what an option holds, as a check. -/
theorem forall_eq_some_of_all {α : Type} {o : Option α} {p : α → Bool} (h : o.all p = true) (a : α) (ha : o = some a) :
    p a = true := by
  subst ha
  simpa using h

/-- The check of `Session.InRange`. -/
def Session.inRangeCheck (e : Session) : Bool :=
  decide (e.count ≤ e.limitValue ∧ e.wraps ≤ Config.saturation ∧ e.illegal ≤ Config.saturation ∧
      e.lost ≤ Config.saturation ∧ e.capture.value ≤ e.limitValue) &&
    decide (e.active.length ≤ Config.maxPoints ∧ e.active.Pairwise (fun p q => p.value < q.value) ∧
      ∀ p ∈ e.active, p.value ≤ e.limitValue) &&
    e.staged.all (fun st =>
      decide (st.points.length ≤ Config.maxPoints ∧ st.points.Pairwise (fun p q => p.value < q.value) ∧
        (∀ p ∈ st.points, p.value ≤ e.limitValue) ∧ st.mode ≠ .now))

theorem Session.inRange_of_check (e : Session) (h : e.inRangeCheck = true) : e.InRange := by
  simp only [Session.inRangeCheck, Bool.and_eq_true, decide_eq_true_eq, and_assoc] at h
  obtain ⟨count, wraps, illegal, lost, capture, short, rising, bounded, staged⟩ := h
  refine ⟨count, wraps, illegal, lost, capture, ⟨short, rising, bounded⟩, fun st stagedIs => ?_⟩
  simpa [ListInRange, and_assoc] using forall_eq_some_of_all staged st stagedIs

/-- The check of `State.InRange`. -/
def State.inRangeCheck (s : State) : Bool :=
  decide (∀ k, (s.session k).inRangeCheck = true) && decide (∀ f ∈ s.fetches, f.points ≤ Config.maxPoints)

theorem State.inRange_of_check (s : State) (h : s.inRangeCheck = true) : s.InRange := by
  simp only [State.inRangeCheck, Bool.and_eq_true, decide_eq_true_eq] at h
  exact ⟨fun k => Session.inRange_of_check _ (h.1 k), h.2⟩

/-- The check of `State.WaitsAgree`. -/
def State.waitsAgreeCheck (s : State) : Bool :=
  decide (∀ k, ∀ w ∈ (s.session k).waits, (s.wait w).any (fun e => decide (e.session = k)) = true) &&
    decide (∀ w, (s.wait w).all (fun e => decide (w ∈ (s.session e.session).waits)) = true) &&
    decide (∀ k, (s.session k).waits.Nodup ∧ (s.session k).waits.length ≤ Config.maxSessionWaits) &&
    decide (∀ k, (s.session k).state = .free → (s.session k).waits = [])

theorem State.waitsAgree_of_check (s : State) (h : s.waitsAgreeCheck = true) : s.WaitsAgree := by
  simp only [State.waitsAgreeCheck, Bool.and_eq_true, decide_eq_true_eq, and_assoc] at h
  obtain ⟨listed, pooled, sizes⟩ := h
  refine ⟨fun k w => ⟨fun inList => ?_, fun outstanding => ?_⟩, sizes⟩
  · simpa [Option.any_eq_true] using listed k w inList
  · obtain ⟨entry, found, rfl⟩ := outstanding
    simpa using forall_eq_some_of_all (pooled w) entry found

/-- The check of `State.JobsBelong`. -/
def State.jobsBelongCheck (s : State) : Bool :=
  decide (∀ w, (s.wait w).all (fun e => decide ((s.session e.session).owner = some e.ring ∧
      (s.jobRing e.ring).state ≠ .absent ∧ (s.jobRing e.ring).bound = e.reportRing)) = true) &&
    decide (∀ f ∈ s.fetches, f.orphan = false → (s.jobRing f.ring).state ≠ .absent ∧
      (s.jobRing f.ring).bound = f.reportRing ∧ (s.jobRing f.ring).fetchInFlight = true) &&
    decide ((s.fetches.filter (fun f => !f.orphan)).map PointFetch.ring).Nodup &&
    s.taking.all (fun t => decide ((s.jobRing t.ring).state ≠ .absent ∧ (s.jobRing t.ring).fetchInFlight = false ∧
      t.stage = .reading (s.jobRing t.ring).recordAddress)) &&
    decide (∀ j, (s.jobRing j).state ≠ .absent → (s.reportRing (s.jobRing j).bound).state ≠ .absent) &&
    decide (∀ j, (s.jobRing j).state ≠ .absent → ((s.jobRing j).bound = 0 ↔ j = 0))

theorem State.jobsBelong_of_check (s : State) (h : s.jobsBelongCheck = true) : s.JobsBelong := by
  simp only [State.jobsBelongCheck, Bool.and_eq_true, decide_eq_true_eq, and_assoc] at h
  obtain ⟨waits, fetches, distinct, take, rings⟩ := h
  refine ⟨fun w entry found => by simpa using forall_eq_some_of_all (waits w) entry found, fetches, distinct,
    fun t taking => ?_, rings⟩
  have holds := forall_eq_some_of_all take t taking
  simp only [decide_eq_true_eq] at holds
  obtain ⟨present, idle, reading⟩ := holds
  simp [present, idle, reading]

/-- The check of `State.PlacesSound`. -/
def State.placesSoundCheck (s : State) : Bool :=
  s.waitsAgreeCheck && s.jobsBelongCheck &&
    decide (∀ q, (s.reportRing q).state = .opened →
      (s.reportRing q).outstanding + (s.reportRing q).reservations ≤ (s.reportRing q).size ∧
        s.placesHeld q ≤ (s.reportRing q).reservations)

theorem State.placesSound_of_check (s : State) (h : s.placesSoundCheck = true) : s.PlacesSound := by
  simp only [State.placesSoundCheck, Bool.and_eq_true, decide_eq_true_eq] at h
  exact ⟨State.waitsAgree_of_check s h.1.1, State.jobsBelong_of_check s h.1.2, h.2⟩

/-- The check of `State.TablesAgree`. -/
def State.tablesAgreeCheck (s : State) : Bool :=
  decide (∀ k, (s.session k).state = .free → s.session k = {}) &&
    decide ((∀ k, (s.session k).pacer.isSome = true → (s.session k).followers = []) ∧
      (∀ k, (s.session k).followers.length ≤ Config.maxFollowers ∧ (s.session k).followers.Nodup) ∧
      (∀ k, ∀ f ∈ (s.session k).followers, (s.session f).pacer = some k) ∧
      ∀ k, ∀ g ∈ (s.session k).marksOut, g ≠ [] ∧ g.Sublist (s.session k).followers) &&
    decide (∀ q k,
      ((∃ rec ∈ (s.reportRing q).store, rec.sessionOf = some k) ∨
        (∃ p ∈ (s.reportRing q).unwritten, p.owner = some k)) → (s.session k).reportRing = some q) &&
    decide (∀ f ∈ s.fetches, f.isVoid = false → f.orphan = false → (s.session f.session).state ≠ .free)

theorem State.tablesAgree_of_check (s : State) (h : s.tablesAgreeCheck = true) : s.TablesAgree := by
  simp only [State.tablesAgreeCheck, Bool.and_eq_true, decide_eq_true_eq] at h
  exact ⟨h.1.1.1, h.1.1.2, h.1.2, h.2⟩

/-- No window end is noted, as a check. -/
theorem State.settled_of_check (s : State) (h : decide (∀ i, (s.session i).windowEndDue = false) = true) :
    s.settled := by
  have h' := of_decide_eq_true h
  exact h'

/-- A read in flight for a ring, as a check. -/
theorem State.readsFor_iff (s : State) (r : JobRingId) :
    s.readsFor r ↔
      s.taking.any (fun t =>
        decide (t.ring = r) && match t.stage with | .reading _ => true | .dropping _ _ => false) = true := by
  unfold State.readsFor
  cases s.taking with
  | none => simp
  | some t =>
    obtain ⟨ring, stage⟩ := t
    cases stage <;> simp

/-- `JobReaches`, as a check. -/
theorem jobReaches_of_check (w : JobRecord) (r : JobRingId) (k : SessionId) (s : State) (address : Nat)
    (h : decide (s.taking = some { ring := r, stage := .reading address } ∧ r ≠ 0 ∧ sessionOf w.session = some k ∧
      ((recordArrives r s).session k).state ≠ .free ∧ ((recordArrives r s).session k).owner = some r) = true) :
    JobReaches w r k s := by
  obtain ⟨h1, h2⟩ := of_decide_eq_true h
  exact ⟨⟨address, h1⟩, h2⟩

end Sys2Proof.Machine
end

