-- ==== Sys2Proof/Laws/Memory.lean ====
section
/-!
SUPPORT. The bytes written to host memory (log 18): a read after a write gives the written byte, a write leaves every
other address alone, and every memory operation keeps the canonical form.
-/

namespace Sys2Proof.Machine

/-- Read after write, same address. -/
@[simp] theorem Memory.read_write_same (m : Memory) (a : Nat) (b : Byte) : (m.write a b).read a = some b := by
  induction m with
  | nil => simp [Memory.write, Memory.read]
  | cons x rest ih =>
    obtain ⟨k, v⟩ := x
    simp only [Memory.write]
    split
    · simp [Memory.read]
    · split
      · simp [Memory.read]
      · have : k ≠ a := by omega
        simp [Memory.read, this, ih]

/-- Read after write, another address. -/
theorem Memory.read_write_ne (m : Memory) (a c : Nat) (b : Byte) (h : c ≠ a) : (m.write a b).read c = m.read c := by
  induction m with
  | nil => simp [Memory.write, Memory.read, Ne.symm h]
  | cons x rest ih =>
    obtain ⟨k, v⟩ := x
    simp only [Memory.write]
    split
    · simp [Memory.read, Ne.symm h]
    · split
      · subst k; simp [Memory.read, Ne.symm h]
      · simp [Memory.read, ih]

/-- The canonical form is that addresses strictly rise. -/
theorem Memory.wf_iff (m : Memory) : m.wf = true ↔ m.Pairwise (fun x y => x.1 < y.1) := by
  induction m with
  | nil => simp [Memory.wf]
  | cons x rest ih =>
    cases rest with
    | nil => simp [Memory.wf]
    | cons y tail =>
      simp only [Memory.wf, Bool.and_eq_true, decide_eq_true_eq, ih]
      constructor
      · rintro ⟨hxy, hp⟩
        refine List.pairwise_cons.mpr ⟨fun z hz => ?_, hp⟩
        rcases List.mem_cons.mp hz with rfl | hz
        · exact hxy
        · exact lt_trans hxy ((List.pairwise_cons.mp hp).1 z hz)
      · intro hp
        have h := List.pairwise_cons.mp hp
        exact ⟨h.1 y (by simp), h.2⟩

/-- Every address after a write is the written one or was there before. -/
theorem Memory.mem_write (m : Memory) (a : Nat) (b : Byte) (x : Host.Cell) (h : x ∈ m.write a b) :
    x = (a, b) ∨ x ∈ m := by
  induction m with
  | nil => simpa [Memory.write] using h
  | cons y rest ih =>
    obtain ⟨k, v⟩ := y
    simp only [Memory.write] at h
    split at h
    · simpa using h
    · split at h
      · simp only [List.mem_cons] at h ⊢
        tauto
      · simp only [List.mem_cons] at h ⊢
        tauto

/-- A write keeps the canonical form. -/
theorem Memory.wf_write (m : Memory) (a : Nat) (b : Byte) (h : m.wf = true) : (m.write a b).wf = true := by
  rw [Memory.wf_iff] at h ⊢
  induction m with
  | nil => simp [Memory.write]
  | cons x rest ih =>
    obtain ⟨k, v⟩ := x
    obtain ⟨hk, hr⟩ := List.pairwise_cons.mp h
    simp only [Memory.write]
    split
    next hlt =>
      refine List.pairwise_cons.mpr ⟨fun z hz => ?_, h⟩
      rcases List.mem_cons.mp hz with rfl | hz
      · exact hlt
      · exact lt_trans hlt (hk z hz)
    next hge =>
      split
      next heq => subst heq; exact List.pairwise_cons.mpr ⟨hk, hr⟩
      next hne =>
        refine List.pairwise_cons.mpr ⟨fun z hz => ?_, ih hr⟩
        rcases Memory.mem_write rest a b z hz with rfl | hz
        · show k < a; omega
        · exact hk z hz

/-- Writing bytes in a row keeps the canonical form. -/
theorem Memory.wf_writeBytes (l : List Byte) (m : Memory) (a : Nat) (h : m.wf = true) :
    (m.writeBytes a l).wf = true := by
  induction l generalizing m a with
  | nil => simpa [Memory.writeBytes] using h
  | cons b rest ih => exact ih _ _ (Memory.wf_write m a b h)

/-- Bytes outside the written row are kept. -/
theorem Memory.read_writeBytes_outside (l : List Byte) (m : Memory) (a c : Nat) (h : c < a ∨ a + l.length ≤ c) :
    (m.writeBytes a l).read c = m.read c := by
  induction l generalizing m a with
  | nil => rfl
  | cons b rest ih =>
    simp only [List.length_cons] at h
    rw [Memory.writeBytes, ih (m.write a b) (a + 1) (by omega), Memory.read_write_ne m a c b (by omega)]

/-- Each byte of the written row reads as written. -/
theorem Memory.read_writeBytes_inside (l : List Byte) (m : Memory) (a n : Nat) (h : n < l.length) :
    (m.writeBytes a l).read (a + n) = l[n]? := by
  induction l generalizing m a n with
  | nil => simp at h
  | cons b rest ih =>
    rw [Memory.writeBytes]
    cases n with
    | zero => rw [Memory.read_writeBytes_outside rest _ _ _ (by omega)]; simp
    | succ n =>
      have := ih (m.write a b) (a + 1) n (by simpa using h)
      rw [show a + (n + 1) = a + 1 + n by omega, this]
      simp

/-- The bytes of a record in the order of the addresses (R174). -/
theorem recordBytes_length (w : BitVec 128) : (recordBytes w).length = 16 := by simp [recordBytes]

/-- One byte of a record. -/
theorem recordBytes_get (w : BitVec 128) (n : Nat) (h : n < 16) :
    (recordBytes w)[n]? = some (w.extractLsb' (8 * n) 8) := by
  simp [recordBytes, h]

/-- Nothing is written at reset. -/
theorem reset_hostMemory_wf : State.reset.hostMemory.wf = true := rfl

end Sys2Proof.Machine
end

