-- ==== Sys2Proof/Laws/Ops.lean ====
section
/-!
SUPPORT. One lemma for each shared operation that says what it does to the entry it is about: handing a record over,
returning a place, freeing and completing a wait, answering a job, handing marks, settling window ends, and the arrival of
a record.
-/

namespace Sys2Proof.Machine

/-! ### Reading an updated entry -/

theorem State.session_updSession (s : State) (i j : SessionId) (f : Session → Session) :
    (s.updSession i f).session j = if j = i then f (s.session i) else s.session j :=
  State.session_setSession s i j _

theorem State.jobRing_updJobRing (s : State) (i j : JobRingId) (f : JobRing → JobRing) :
    (s.updJobRing i f).jobRing j = if j = i then f (s.jobRing i) else s.jobRing j :=
  State.jobRing_setJobRing s i j _

theorem State.reportRing_updReportRing (s : State) (i j : ReportRingId) (f : ReportRing → ReportRing) :
    (s.updReportRing i f).reportRing j = if j = i then f (s.reportRing i) else s.reportRing j :=
  State.reportRing_setReportRing s i j _

@[simp] theorem State.wait_updSession (s : State) (i : SessionId) (f : Session → Session) (w : WaitId) :
    (s.updSession i f).wait w = s.wait w := rfl

@[simp] theorem State.reportRing_updSession (s : State) (i : SessionId) (f : Session → Session) (q : ReportRingId) :
    (s.updSession i f).reportRing q = s.reportRing q := rfl

@[simp] theorem State.jobRing_updSession (s : State) (i : SessionId) (f : Session → Session) (j : JobRingId) :
    (s.updSession i f).jobRing j = s.jobRing j := rfl

@[simp] theorem State.output_updSession (s : State) (i : SessionId) (f : Session → Session) (l : OutputId) :
    (s.updSession i f).output l = s.output l := rfl

@[simp] theorem State.session_updReportRing (s : State) (q : ReportRingId) (f : ReportRing → ReportRing)
    (i : SessionId) : (s.updReportRing q f).session i = s.session i := rfl

@[simp] theorem State.wait_updReportRing (s : State) (q : ReportRingId) (f : ReportRing → ReportRing) (w : WaitId) :
    (s.updReportRing q f).wait w = s.wait w := rfl

@[simp] theorem State.jobRing_updReportRing (s : State) (q : ReportRingId) (f : ReportRing → ReportRing)
    (j : JobRingId) : (s.updReportRing q f).jobRing j = s.jobRing j := rfl

@[simp] theorem State.session_updJobRing (s : State) (j : JobRingId) (f : JobRing → JobRing) (i : SessionId) :
    (s.updJobRing j f).session i = s.session i := rfl

@[simp] theorem State.reportRing_updJobRing (s : State) (j : JobRingId) (f : JobRing → JobRing) (q : ReportRingId) :
    (s.updJobRing j f).reportRing q = s.reportRing q := rfl

@[simp] theorem State.wait_updJobRing (s : State) (j : JobRingId) (f : JobRing → JobRing) (w : WaitId) :
    (s.updJobRing j f).wait w = s.wait w := rfl

/-! ### JOB records (R145, R154) -/

/-- A JOB record is placed at the write index and consumes a reservation. -/
theorem ReportRing.placeJob_eq_withJob (r : ReportRing) (rec : ReportRecord) (h : rec.sessionOf = none) :
    r.placeJob rec = r.withJob rec := by
  simp only [ReportRing.placeJob, ReportRing.place, ReportRing.withJob, h]

/-- A JOB record raises no lost count. -/
@[simp] theorem jobRecord_sessionOf (ring : JobRingId) (taken : Nat) (tag : BitVec 16) (a : Answer) :
    (jobRecord ring taken tag a).sessionOf = none := rfl

/-- Handing a JOB record over: an OPEN ring places it, any other discards it. -/
theorem handJob_reportRing (ring q : ReportRingId) (rec : ReportRecord) (s : State) (h : rec.sessionOf = none) :
    (handJob ring rec s).reportRing q = handedRing [(ring, rec)] q (s.reportRing q) := by
  unfold handJob handedRing
  by_cases hq : ring = q
  · subst hq
    split <;> simp [State.reportRing_updReportRing, ReportRing.placeJob_eq_withJob, h]
  · have hq' : q ≠ ring := fun h => hq h.symm
    split <;> simp [State.reportRing_updReportRing, hq, hq']

@[simp] theorem handJob_session (ring : ReportRingId) (rec : ReportRecord) (s : State) (i : SessionId) :
    (handJob ring rec s).session i = s.session i := by unfold handJob; split <;> rfl

@[simp] theorem handJob_wait (ring : ReportRingId) (rec : ReportRecord) (s : State) (w : WaitId) :
    (handJob ring rec s).wait w = s.wait w := by unfold handJob; split <;> rfl

@[simp] theorem handJob_output (ring : ReportRingId) (rec : ReportRecord) (s : State) (l : OutputId) :
    (handJob ring rec s).output l = s.output l := by unfold handJob; split <;> rfl

@[simp] theorem handJob_jobRing (ring : ReportRingId) (rec : ReportRecord) (s : State) (j : JobRingId) :
    (handJob ring rec s).jobRing j = s.jobRing j := by unfold handJob; split <;> rfl

/-- A list of records handed over is the first and then the rest. -/
theorem handedRing_cons (x : ReportRingId × ReportRecord) (rest : List (ReportRingId × ReportRecord))
    (id : ReportRingId) (q : ReportRing) :
    handedRing (x :: rest) id q = handedRing rest id (handedRing [x] id q) := by
  unfold handedRing
  by_cases hq : q.state = .opened
  · by_cases hx : x.1 = id <;> simp [hq, hx, ReportRing.withJob]
  · simp [hq]

@[simp] theorem handedRing_nil (id : ReportRingId) (q : ReportRing) : handedRing [] id q = q := by
  unfold handedRing
  split <;> rfl

/-- Records handed over one list after the other. -/
theorem handedRing_append (l l' : List (ReportRingId × ReportRecord)) (id : ReportRingId) (q : ReportRing) :
    handedRing (l ++ l') id q = handedRing l' id (handedRing l id q) := by
  induction l generalizing q with
  | nil => simp
  | cons x rest ih => rw [List.cons_append, handedRing_cons, ih, ← handedRing_cons]

/-! ### Places (R148) -/

/-- A returned reservation lowers the count of an OPEN ring and serves its pending store; any other ring is kept. -/
theorem returnReservation_reportRing (ring q : ReportRingId) (s : State) :
    (returnReservation ring s).reportRing q =
      if q = ring ∧ (s.reportRing ring).state = .opened then
        ReportRing.drain { s.reportRing ring with reservations := (s.reportRing ring).reservations - 1 }
      else s.reportRing q := by
  unfold returnReservation
  split <;> simp_all [State.reportRing_updReportRing]

/-! ### Answers (R136, R139) -/

/-- The JOB record of an answer goes to the ring of its reservation. -/
theorem answer_reportRing (ring : JobRingId) (report q : ReportRingId) (tag : BitVec 16) (a : Answer) (s : State) :
    (answer ring report tag a s).reportRing q =
      handedRing [(report, jobRecord ring (s.jobRing ring).take tag a)] q (s.reportRing q) := by
  rw [answer, State.reportRing_updJobRing, handJob_reportRing _ _ _ _ rfl]

/-- A refusal halts its ring when the halt flag is set; every other ring is kept. -/
theorem answer_jobRing (ring j : JobRingId) (report : ReportRingId) (tag : BitVec 16) (a : Answer) (s : State) :
    (answer ring report tag a s).jobRing j =
      if j = ring then (s.jobRing ring).afterAnswer a.status else s.jobRing j := by
  rw [answer, State.jobRing_updJobRing, handJob_jobRing, handJob_jobRing]

/-- Only job rings and report rings differ after an answer. -/
theorem answer_onlyRings (ring : JobRingId) (report : ReportRingId) (tag : BitVec 16) (a : Answer) (s : State) :
    OnlyRings s (answer ring report tag a s) := by
  unfold OnlyRings answer handJob
  split <;> rfl

@[simp] theorem answer_session (ring : JobRingId) (report : ReportRingId) (tag : BitVec 16) (a : Answer) (s : State)
    (i : SessionId) : (answer ring report tag a s).session i = s.session i := by
  simp [answer]

@[simp] theorem answer_wait (ring : JobRingId) (report : ReportRingId) (tag : BitVec 16) (a : Answer) (s : State)
    (w : WaitId) : (answer ring report tag a s).wait w = s.wait w := by
  simp [answer]

/-- An answer is one JOB record with the fields of R136, and the halt of its ring. -/
theorem answerNow_answered (ring : JobRingId) (w : JobRecord) (status : Status) (session : Byte) (value : Word32)
    (flags : RecordFlags) (t : State) :
    Answered ring w.tag status session value flags t
      (answerNow ring w { status, session, value, flags, stamp := t.stamp } t) := by
  refine ⟨fun q => ?_, fun j => ?_⟩
  · rw [answerNow, answer_reportRing]
    rfl
  · rw [answerNow, answer_jobRing]
    by_cases hj : j = ring
    · subst hj
      simp [JobRing.afterAnswer]
    · simp [hj]

/-- A refused job is one JOB record, and nothing else but the halt of its ring changes (R135). -/
theorem reply_refused (ring : JobRingId) (w : JobRecord) (status : Status) (value : Nat) (t : State)
    (h : status.cls = .refusal) :
    RefusedWith ring w.tag status w.session (toWord value) t (.next (reply ring w status value t)) :=
  ⟨_, rfl, h, answer_onlyRings _ _ _ _ _, answerNow_answered ring w status w.session (toWord value) {} t⟩

/-- A refused control job, with session 255. -/
theorem replyControl_refused (ring : JobRingId) (w : JobRecord) (status : Status) (value : Nat) (t : State)
    (h : status.cls = .refusal) :
    RefusedWith ring w.tag status 255 (toWord value) t (.next (replyControl ring w status value t)) :=
  ⟨_, rfl, h, answer_onlyRings _ _ _ _ _, answerNow_answered ring w status 255 (toWord value) {} t⟩

/-! ### Waits (R97, R106) -/

/-- Freeing an outstanding entry: the entry is free and leaves its session's list. -/
theorem freeWait_eq (w : WaitId) (s : State) (e : WaitEntry) (h : s.wait w = some e) :
    freeWait w s = (s.setWait w none).updSession e.session (fun x => { x with waits := x.waits.erase w }) := by
  unfold freeWait
  rw [h]

theorem freeWait_wait (w x : WaitId) (s : State) : (freeWait w s).wait x = if x = w then none else s.wait x := by
  unfold freeWait
  split
  next h =>
    split
    next hx => rw [hx, h]
    next => rfl
  next e h => simp [State.wait_setWait]

@[simp] theorem freeWait_reportRing (w : WaitId) (s : State) (q : ReportRingId) :
    (freeWait w s).reportRing q = s.reportRing q := by unfold freeWait; split <;> rfl

/-- A completed wait's entry is free; every other entry is kept. -/
theorem completeWaitAt_wait (w x : WaitId) (status : Status) (stamp : Word32) (s : State) :
    (completeWaitAt w status stamp s).wait x = if x = w then none else s.wait x := by
  unfold completeWaitAt
  split
  next h =>
    split
    next hx => rw [hx, h]
    next => rfl
  next e h => rw [handJob_wait, freeWait_wait]

/-- A completed wait leaves its session's list, and no session changes besides. -/
theorem completeWaitAt_session (w : WaitId) (status : Status) (stamp : Word32) (s : State) (e : WaitEntry)
    (h : s.wait w = some e) (i : SessionId) :
    (completeWaitAt w status stamp s).session i =
      if i = e.session then { s.session i with waits := (s.session i).waits.erase w } else s.session i := by
  unfold completeWaitAt
  rw [h]
  simp only [handJob_session, freeWait_eq w s e h, State.session_updSession, State.session_setWait]
  split
  next hi => rw [hi]
  next => rfl

/-- A completed wait is one JOB record with the count of its session, at the ring of its reservation. -/
theorem completeWaitAt_reportRing (w : WaitId) (status : Status) (stamp : Word32) (s : State) (e : WaitEntry)
    (h : s.wait w = some e) (q : ReportRingId) :
    (completeWaitAt w status stamp s).reportRing q =
      handedRing
        [(e.reportRing,
          jobRecord e.ring (s.jobRing e.ring).take e.tag
            { status, session := toByte e.session.val, value := toWord (s.session e.session).count, stamp })]
        q (s.reportRing q) := by
  unfold completeWaitAt
  rw [h, handJob_reportRing _ _ _ _ rfl, freeWait_reportRing]

/-! ### Marks (R58, R66, R89) -/

/-- Handing marks adds one event's marks at the end of the pacer's own list; no other session changes. -/
theorem handMarks_session (i j : SessionId) (s : State) :
    (handMarks i s).session j =
      if j = i ∧ (s.session i).followers ≠ [] then
        { s.session i with marksOut := (s.session i).marksOut ++ [(s.session i).followers] }
      else s.session j := by
  rw [handMarks, State.session_updSession]
  by_cases hj : j = i
  · subst hj
    by_cases h : (s.session j).followers = [] <;> simp [Session.handsMarks, h]
  · simp [hj]

@[simp] theorem handMarks_wait (i : SessionId) (s : State) (w : WaitId) : (handMarks i s).wait w = s.wait w := rfl

@[simp] theorem handMarks_reportRing (i : SessionId) (s : State) (q : ReportRingId) :
    (handMarks i s).reportRing q = s.reportRing q := rfl

/-- The first follower of the oldest event takes its mark. -/
theorem marksAfter_head (f : SessionId) (more : List SessionId) (rest : List (List SessionId)) :
    marksAfter f ((f :: more) :: rest) = some (if more = [] then rest else more :: rest) := by
  simp [marksAfter]

/-- A follower behind another of the same event has no mark to take yet. -/
theorem marksAfter_waits (f x : SessionId) (more : List SessionId) (rest : List (List SessionId)) (hx : x ≠ f)
    (hf : f ∈ more) : marksAfter f ((x :: more) :: rest) = none := by
  simp [marksAfter, hx, hf]

/-- A follower that an event has handed no mark goes by that event. -/
theorem marksAfter_skip (f : SessionId) (g : List SessionId) (rest : List (List SessionId)) (h : f ∉ g) :
    marksAfter f (g :: rest) = (marksAfter f rest).map (g :: ·) := by
  simp [marksAfter, h]

/-- A follower for which no event's mark is out has none to take. -/
theorem marksAfter_none (f : SessionId) (out : List (List SessionId)) (h : ∀ g ∈ out, f ∉ g) :
    marksAfter f out = none := by
  induction out with
  | nil => rfl
  | cons g rest ih =>
    rw [marksAfter_skip f g rest (h g (by simp)), ih (fun g' hg' => h g' (by simp [hg']))]
    rfl

/-- A session without a pacer takes no mark. -/
theorem takeMark_no_pacer (f : SessionId) (s : State) (h : (s.session f).pacer = none) : takeMark f s = s := by
  unfold takeMark
  rw [h]

/-- Without marks out there is nothing to flush. -/
theorem flushMarks_none (p : SessionId) (s : State) (h : (s.session p).marksOut = []) : flushMarks p s = s := by
  rw [flushMarks, h]
  rfl

/-! ### Window ends that steps have caused (log 11) -/

/-- With none noted there is none to take. -/
theorem settle_of_settled (s : State) (h : s.settled) : settle s = s := by
  have key : ∀ l : List SessionId, settleList l s = s := by
    intro l
    induction l with
    | nil => rfl
    | cons i rest ih => simp [settleList, h i, ih]
  exact key allSessions

/-! ### The arrival of a record (R130) -/

/-- With a read in flight the record goes to its job. -/
theorem withTaken_reading (job : JobRingId → State → State) (s : State) (r : JobRingId) (h : s.readsFor r) :
    withTaken job s = job r (recordArrives r s) := by
  obtain ⟨address, h⟩ := h
  unfold withTaken
  rw [h]

/-- With none in flight it is not used (log 2). -/
theorem withTaken_no_read (job : JobRingId → State → State) (s : State) (h : ∀ r, ¬ s.readsFor r) :
    withTaken job s = s := by
  unfold withTaken
  split
  · rfl
  next t ht =>
    split
    next address hr =>
      refine absurd ⟨address, ?_⟩ (h t.ring)
      rw [ht, ← hr]
    · rfl

/-- The job rings after the arrival: the take index of the ring has advanced. -/
theorem recordArrives_jobRing (r j : JobRingId) (s : State) :
    (recordArrives r s).jobRing j = if j = r then (s.jobRing r).advance else s.jobRing j := by
  have h : (recordArrives r s).jobRing j = ((settle s).updJobRing r JobRing.advance).jobRing j := by
    simp only [recordArrives, State.jobRing]
  rw [h, State.jobRing_updJobRing, (eventFrame_settle s).jobRing, (eventFrame_settle s).jobRing]

/-- Where no window end is noted the arrival changes nothing but the take and its index. -/
theorem recordArrives_of_settled (r : JobRingId) (s : State) (h : s.settled) :
    recordArrives r s = { s.updJobRing r JobRing.advance with taking := none } := by
  unfold recordArrives
  rw [settle_of_settled s h]

/-- The common validation of a work job that its target passes (R134). -/
theorem workTarget_ok (w : JobRecord) (s : State) (r : JobRingId) (k : SessionId) (h : JobReaches w r k s) :
    workTarget r w (recordArrives r s) = .ok k := by
  obtain ⟨_, hr, hk, hf, ho⟩ := h
  simp [workTarget, hr, hk, hf, ho]

/-- A work job that reaches its own checks runs its body on the state after the arrival. -/
theorem withTaken_workJob (body : JobRingId → SessionId → JobRecord → State → State) (w : JobRecord) (s : State)
    (r : JobRingId) (k : SessionId) (h : JobReaches w r k s) :
    withTaken (workJob body w) s = body r k w (recordArrives r s) := by
  rw [withTaken_reading _ s r h.1, workJob, workTarget_ok w s r k h]

/-- A control job of JR0 runs its body on the state after the arrival. -/
theorem withTaken_controlJob (body : JobRecord → State → State) (w : JobRecord) (s : State) (h : s.readsFor 0) :
    withTaken (controlJob body w) s = body w (recordArrives 0 s) := by
  rw [withTaken_reading _ s 0 h, controlJob]
  rfl

/-! ### Lines (R114) -/

/-- The lines of the set accept; the others are kept. -/
theorem acceptLines_line (lines : BitVec 16) (l : List LineId) (s : State) (m : LineId) (h : l.Nodup) :
    (acceptLines lines l s).line m =
      if m ∈ l ∧ lines.getLsbD m.val = true then (s.line m).accept else s.line m := by
  induction l generalizing s with
  | nil => simp [acceptLines]
  | cons x rest ih =>
    obtain ⟨hx, hr⟩ := List.nodup_cons.mp h
    rw [acceptLines, ih _ hr]
    by_cases hm : m = x
    · subst hm
      cases hb : lines.getLsbD m.val <;> simp only [hx, false_and, List.mem_cons, true_or, true_and, if_false, if_true,
        Bool.false_eq_true, State.line_setLine_same]
    · cases hb : lines.getLsbD x.val <;> simp only [hm, List.mem_cons, false_or, if_false, if_true, Bool.false_eq_true,
        State.line_setLine]

/-- Every line has run its filter on its sample. -/
theorem sampleLines_line (levels : BitVec 16) (l : List LineId) (s : State) (m : LineId) (h : l.Nodup) :
    (sampleLines levels l s).line m =
      if m ∈ l then (s.line m).sampled (levels.getLsbD m.val) else s.line m := by
  induction l generalizing s with
  | nil => simp [sampleLines]
  | cons x rest ih =>
    obtain ⟨hx, hr⟩ := List.nodup_cons.mp h
    rw [sampleLines, ih _ hr]
    by_cases hm : m = x
    · subst hm
      simp [hx]
    · simp [hm, State.line_setLine]

end Sys2Proof.Machine
end

