-- ==== Sys2Proof/Tests/Slice0.lean ====
section
/-!
SUPPORT. Small tests. `test_` theorems take their expected results from the worked examples and tables of spec/; each is
about one step. `witness_` theorems show a state and operands that meet the hypotheses of the obligation they name, clause
by clause.
-/

namespace Sys2Proof.Tests

open Sys2Proof.Machine

set_option Elab.async false

/-! ### Small states -/

/-- A value at a byte offset of a record. -/
def field (off v : Nat) : Nat := v * 2 ^ (8 * off)

/-- A record of a kind. -/
def job (k : Kind) (fields : Nat) : JobRecord := BitVec.ofNat 256 (k.code.toNat + fields)

/-- An empty OPEN ring of four slots. -/
def ring : ReportRing := { state := .opened, base := 0x1000, size := 4, lap := true, notify := .each }

/-- A RUNNING ring of eight slots with three records pending. -/
def jring : JobRing := { state := .running, base := 0x8000, size := 8, post := 3, bound := 1, weight := 2 }

/-- READY and running, with JR0 and JR1 RUNNING and RR0 to RR2 OPEN. -/
def base : State :=
  (((({ State.reset with phase := .ready, run := true, stamp := 7 }.setReportRing 0 ring).setReportRing 1 ring).setReportRing
    2 ring).setJobRing 0 { jring with bound := 0 }).setJobRing 1 jring

/-- An ACTIVE TALLY session of JR1. -/
def tally : Session :=
  { state := .active, owner := some 1, reportRing := some 1, mode := some .tally, lineA := some 0,
    edgeSelect := some .rising, limit := some 10, count := 3 }

/-- An ACTIVE RATE session with OWN source whose window is in progress. -/
def rate : Session :=
  { tally with mode := some .rate, tick := some .us1, windowSource := some .own, windowLength := some 5, elapsed := 2,
               windowOpen := true }

/-- An ACTIVE INTERVAL session with OWN source. -/
def interval : Session :=
  { tally with mode := some .interval, lineA := none, edgeSelect := none, tick := some .us1, windowSource := some .own,
               windowLength := some 5, windowOpen := true }

/-- An ACTIVE SPAN session with a span in progress. -/
def span : Session := { tally with mode := some .span, edgeSelect := none, tick := some .us1, windowOpen := true }

/-- An ACTIVE QUAD session on IN0 and IN1. -/
def quad : Session :=
  { tally with mode := some .quad, lineB := some 1, edgeSelect := none, resolution := some .x4,
               policy := some .tallyOnly, pairRef := some (false, false), limit := some 9999, count := 0 }

/-- S0 stands as given and JR1 reads a record. -/
def work (e : Session) : State := { base.setSession 0 e with taking := some { ring := 1, stage := .reading 0x8000 } }

/-- JR0 reads a record. -/
def ctl (s : State) : State := { s with taking := some { ring := 0, stage := .reading 0x8000 } }

/-- An outstanding wait of S0, tag 9. -/
def waiting (c : WaitCond) : WaitEntry :=
  { session := 0, ring := 1, tag := 9, cond := c, deadline := some 107, timer := some 0, reportRing := 1 }

/-- S0 with one outstanding wait. -/
def workWaiting (e : Session) (c : WaitCond) : State :=
  (work { e with waits := [0] }).setWait 0 (some (waiting c))

/-- The state after a command. -/
def after (c : Instr) (s : State) : State :=
  match exec c s with
  | .next t => t
  | .fault _ | .refused _ => s

/-- The level of IN0 or IN1 is high. -/
def high (l : LineId) (s : State) : State := s.setLine l { accepted := true }

/-! ### Well-formedness: every check refuses an ill-formed command -/

/-- A job row with a record of another kind (R175). -/
theorem test_wellFormed_kinds :
    ([Instr.openJob, .closeJob, .startJob, .stopJob, .preset, .read, .loadPoints, .commitPoints, .hold, .release,
      .awaitJob, .cancelWait, .outputs, .makeJobRing, .dropJobRing, .restartJobRing, .makeReportRing, .dropReportRing,
      .tuneReportRing, .lineSetup].all (fun c => !(c 0x0e).wellFormed)) = true := by decide +kernel

/-- A fetch of no point, of 17 points, an error at entry 16 (R69). -/
theorem test_wellFormed_fetch :
    (Instr.pointFetchDone 0 []).wellFormed = false ∧
      (Instr.pointFetchDone 0 (List.replicate 17 0)).wellFormed = false ∧
      (Instr.pointFetchDone 0 (List.replicate 16 0)).wellFormed = true ∧
      (Instr.pointFetchError 0 16).wellFormed = false := by decide +kernel

/-- No line, or something twice in an order. -/
theorem test_wellFormed_orders :
    (Instr.qualifiedEdge 0 []).wellFormed = false ∧
      (Instr.qualifiedEdge 1 [(0, .phase), (0, .phase)]).wellFormed = false ∧
      (Instr.tick .us1 [(3, .tick), (3, .tick)]).wellFormed = false ∧
      (Instr.tick .us1 [(3, .mark), (3, .tick), (3, .mark)]).wellFormed = true ∧
      (Instr.rawPinSample 0 [(1, .lineB), (1, .lineB)]).wellFormed = false := by decide +kernel

/-- Register words without, or with, the bit the row names (R166, R167), and an offset that is no word. -/
theorem test_wellFormed_registers :
    (Instr.badIndexClear 0).wellFormed = false ∧ (Instr.run 2).wellFormed = false ∧
      (Instr.startUp 0).wellFormed = false ∧ (Instr.startUp 3).wellFormed = false ∧
      (Instr.intEnable 6).wellFormed = false ∧ (Instr.engineReset 5).wellFormed = false ∧
      (Instr.registerWrite 6 0).wellFormed = false := by decide +kernel

/-! ### Codes and layouts -/

/-- The kind codes of R175: 13 session kinds from 01h, 7 control kinds from 20h. -/
theorem test_kindCodes :
    Kind.all.map Kind.code = [1, 2, 3, 4, 5, 6, 7, 8, 9, 10, 11, 12, 13, 32, 33, 34, 35, 36, 37, 38] ∧
      Kind.all.map (fun k => Kind.ofCode k.code) = Kind.all.map some ∧ Kind.ofCode 0x0e = none := by decide +kernel

/-- Fields of a record by byte offset, little-endian (R174, R175). -/
theorem test_recordFields :
    (job .openJob (field 1 3 + field 2 0x1234 + field 4 255)).tag = 0x1234 ∧
      (job .openJob (field 1 3 + field 2 0x1234 + field 4 255)).session = 255 ∧
      (job .openJob (field 1 2)).flag 1 = true ∧ (job .openJob (field 16 0x01020304)).byte 16 = 4 := by decide +kernel

/-- No row of the table has bits. -/
theorem test_decodeTableWord : decodeTableWord 32 0 = none ∧ base.withFetchWord 32 0 = base := ⟨rfl, rfl⟩

/-- A POINT record in its slot (R178): kind 1 and lap in byte 0, index, DOWN, status, session, sequence, lost, value,
stamp. -/
theorem test_reportRecordLayout :
    ({ body := .unsolicited .point 2 5 7, status := .success, session := 3, value := 0x11223344,
       flags := { down := true }, stamp := 0x55667788 } : ReportRecord).encode true =
      0x55667788112233440007050300080281#128 := by decide +kernel

/-- IDENT (R180): part 3Ch, and the sizes 32 sessions, 16 lines, 8 outputs and 8 and 8 rings, each less one. -/
theorem test_ident : base.readRegister 0 = identWord ∧ identWord.extractLsb' 0 8 = 0x3c := by decide +kernel

/-! ### Counting (file 02) -/

/-- Sample 1 of the quadrature example: A rises with B low, UP. -/
theorem test_quad_up : ((pairSample 0 (high 0 (work quad))).session 0).count = 1 := by decide +kernel

/-- Sample 5: B rises with A low, DOWN from 0 wraps to 9,999 at X4; at X1 it is no step. -/
theorem test_quad_downWraps :
    ((pairSample 0 (high 1 (work quad))).session 0).count = 9999 ∧
      ((pairSample 0 (high 1 (work quad))).session 0).wraps = 1 ∧
      ((pairSample 0 (high 1 (work { quad with resolution := some .x1 }))).session 0).count = 0 := by decide +kernel

/-- Sample 6: both changed, illegal; under FAULT a NOTICE and FAULTED. -/
theorem test_quad_illegal :
    ((pairSample 0 (high 0 (work { quad with pairRef := some (false, true), count := 9999 }))).session 0).illegal = 1 ∧
      ((pairSample 0 (high 0 (work
        { quad with pairRef := some (false, true), policy := some .fault }))).session 0).state = .faulted := by
  decide +kernel

/-- The second rising edge of the wrapping example of file 02: wrap, commit, hit, both waits, HOLD. -/
def wrapping : State :=
  ((work
    { tally with
      limit := some 99, count := 99, waits := [0, 1]
      active := [{ value := 50, filter := .up, actions := { report := true } }]
      staged := some
        { points := [{ value := 0, filter := .up, actions := { latch := true, report := true, hold := true } }],
          mode := .atWrap } }).setWait 0 (some (waiting (.atMost 10)))).setWait 1 (some (waiting (.reach 0 .up)))

theorem test_step_wrapCommitsHitsAndHolds :
    let e := (stepSession 0 .up wrapping).session 0
    e.count = 0 ∧ e.wraps = 1 ∧ e.staged = none ∧ e.active.map Point.value = [0] ∧
      e.capture = { valid := true, value := 0, stamp := 7 } ∧ e.hold.host = true ∧ e.waits = [] ∧
      ((stepSession 0 .up wrapping).reportRing 1).unwritten.map (fun p => p.record.body) =
        [.unsolicited .point 0 0 0, .job 1 0 9, .job 1 0 9] := by decide +kernel

/-- Edge 2 of the divider example of file 04: the hit at 3, then ZERO, which meets AT_MOST 0. -/
theorem test_step_zeroMeetsAtMost :
    let s := stepSession 0 .up (workWaiting
      { tally with count := 2, pulseWidth := some 20,
                   active := [{ value := 3, filter := .up, actions := { output := some (2, .pulse), zero := true } }] }
      (.atMost 0))
    (s.session 0).count = 0 ∧ (s.session 0).wraps = 0 ∧ (s.session 0).waits = [] ∧
      s.output 2 = { level := true, timer := some 2000 } ∧
      (s.reportRing 1).unwritten.map (fun p => p.record.value) = [0] := by decide +kernel

/-! ### Windows and pacing (files 03 and 05) -/

/-- The second window end of S12 in the paced example: SAMPLE 1,203 with PARTIAL, then a window that is not partial. -/
theorem test_windowEnd_sample :
    let s := windowEnd 0 (work { rate with windowSource := some .pacer, count := 1203, partialFlag := true })
    (s.session 0).count = 0 ∧ (s.session 0).partialFlag = false ∧ (s.session 0).windowOpen = true ∧
      (s.reportRing 1).unwritten.map (fun p => (p.record.value, p.record.flags.isPartial)) = [(1203, true)] := by
  decide +kernel

/-- Two marks of one window end reach the followers in list order (R58): the second follower cannot go first. -/
def marked : State :=
  (work { rate with followers := [1, 2], marksOut := [[1, 2]] }).setSession 1
      { rate with windowSource := some .pacer, windowLength := none, pacer := some 0, count := 4, inhibitLine := some 2 }
    |>.setSession 2
      { rate with windowSource := some .pacer, windowLength := none, pacer := some 0, windowOpen := false,
                  hold := { pacer := true } }

theorem test_marks_listOrder :
    after (.paceMark 2) marked = marked ∧ ((after (.paceMark 1) marked).session 0).marksOut = [[2]] ∧
      ((after (.paceMark 1) marked).session 1).count = 0 ∧
      ((after (.paceMark 2) (after (.paceMark 1) marked)).session 0).marksOut = [] := by decide +kernel

/-- An edge that raises the inhibit line at the instant of a mark: window end first, or partial first (R44). -/
theorem test_mark_amongEdges :
    let s := marked.setLine 2 { runCount := 3 }
    ((after (.qualifiedEdge 4 [(1, .mark)]) s).reportRing 1).unwritten.map (fun p => p.record.flags.isPartial) = [false] ∧
      ((after (.qualifiedEdge 4 [(1, .inhibit), (1, .mark)]) s).reportRing 1).unwritten.map
        (fun p => p.record.flags.isPartial) = [true] := by decide +kernel

/-- A tick at the instant of a mark counts in the new window, or in the old one (R56). -/
theorem test_mark_amongTicks :
    let s := marked.updSession 1 (fun e => { e with mode := some .interval })
    ((after (.tick .us1 [(1, .mark)]) s).session 1).count = 1 ∧
      ((after (.tick .us1 [(1, .tick), (1, .mark)]) s).session 1).count = 0 ∧
      ((after (.tick .us1 [(1, .tick), (1, .mark)]) s).reportRing 1).unwritten.map (fun p => p.record.value) = [5] := by
  decide +kernel

/-- The gate falls in the span example: SAMPLE 770 with PARTIAL, and the count stays. -/
theorem test_span_gateFalls :
    let s := gateEdge 0 false (work { span with count := 770, partialFlag := true })
    (s.session 0).count = 770 ∧ (s.session 0).windowOpen = false ∧
      (s.reportRing 1).unwritten.map (fun p => (p.record.value, p.record.flags.isPartial)) = [(770, true)] := by
  decide +kernel

/-- A pacer with one follower in each of the two conditions of the forced close of file 05. -/
def pacing : State :=
  ((work { rate with followers := [1, 2], count := 312 }).setSession 1
    { interval with windowSource := some .pacer, windowLength := none, pacer := some 0, count := 41200,
                    limit := some 100000 }).setSession 2
    { interval with windowSource := some .pacer, windowLength := none, pacer := some 0, windowOpen := false,
                    hold := { pacer := true, inhibit := true } }

/-- The forced close: both followers IDLE without pacer, INHIBIT kept, counts kept, the pacer FREE, value 2. -/
theorem test_close_ofPacerWithForce :
    let s := after (.closeJob (job .closeJob (field 1 1))) pacing
    s.session 0 = {} ∧ (s.session 1).state = .idle ∧ (s.session 1).count = 41200 ∧ (s.session 1).pacer = none ∧
      (s.session 2).hold = { inhibit := true } ∧
      ((s.reportRing 1).unwritten.getLast?.map (fun p => p.record.value)) = some 2 := by decide +kernel

/-! ### Lines (file 07) -/

/-- Sample 7 of the filter example: the fourth equal sample is accepted, and a session sees the rise. -/
theorem test_filter_acceptsFourthSample :
    let s := after (.rawPinSample 1 []) ((work tally).setLine 0 { runCount := 3 })
    s.line 0 = { accepted := true, runCount := 0 } ∧ (s.session 0).count = 4 := by decide +kernel

/-- Sample 3: a sample equal to the accepted level restarts the run. -/
theorem test_filter_restartsRun :
    (after (.rawPinSample 0 []) ((work tally).setLine 0 { runCount := 2 })).line 0 = {} := by decide +kernel

/-- A filter made wider by LINE_SETUP does not accept at its old width (R117). -/
theorem test_qualifiedEdge_widened :
    let s := (work tally).setLine 0 { width := 5, runCount := 3 }
    after (.qualifiedEdge 1 []) s = s ∧
      ((after (.qualifiedEdge 1 []) (s.setLine 0 { width := 4, runCount := 3 })).session 0).count = 4 := by decide +kernel

/-- A PULSE that comes before the expiry at one instant restarts the pulse: there is no expiry (R122). -/
theorem test_pulse_restartBeatsExpiry :
    let s := (work tally).setOutput 5 { owner := some 0, level := true, timer := some 2000 }
    after (.pulseExpiry 5) s = s := by decide +kernel

/-- The expiry at 160 µs of the output example. -/
theorem test_pulse_expiry :
    (after (.pulseExpiry 5) ((work tally).setOutput 5 { owner := some 0, level := true, timer := some 0 })).output 5 =
      { owner := some 0, level := false, timer := none } := by decide +kernel

/-! ### Rings (files 08 and 09) -/

/-- JR1, JR2 and JR3 with weights 2, 1 and 3 in the rotation example. -/
def rotating (turn : JobRingId) (left post1 : Nat) : State :=
  { (((base.setJobRing 0 {}).setJobRing 1 { jring with post := post1 }).setJobRing 2
      { jring with weight := 1, bound := 2 }).setJobRing 3 { jring with weight := 3, bound := 2 } with
    turn := turn, turnLeft := left }

/-- Takes 1 to 3 of the rotation example. -/
theorem test_rotation :
    (rotating 7 0 3).choose = some { ring := 1, turn := 1, turnLeft := 1 } ∧
      (rotating 1 1 3).choose = some { ring := 1, turn := 1, turnLeft := 0 } ∧
      (rotating 1 0 3).choose = some { ring := 2, turn := 2, turnLeft := 0 } ∧
      (rotating 2 0 0).choose = some { ring := 3, turn := 3, turnLeft := 2 } := by decide +kernel

/-- A take reads the 32 bytes at base + 32 × take (R130). -/
theorem test_take_readAddress :
    ((after (.jobTake none)
      (rotating 7 0 3 |>.setJobRing 1 { jring with take := 2 })).taking) =
        some { ring := 1, stage := .reading 0x8040 } := by decide +kernel

/-- The refused list of the halted-ring example halts its ring. -/
theorem test_fetch_refusalHalts :
    (after (.pointFetchDone 0 [11])
      { (base.setSession 0 tally).setJobRing 1 { jring with haltFlag := true, fetchInFlight := true } with
        fetches := [{ ring := 1, tag := 3, session := 0, points := 1, address := 8, mode := .atWrap, reportRing := 1 }] }).jobRing 1 =
      { jring with haltFlag := true, state := .halted } := by decide +kernel

/-- RR6 of the burst example before the first release. -/
def burst : ReportRing :=
  { ring with
    size := 3, writeIndex := 2, outstanding := 2, reservations := 1
    store := (List.range 8).map fun n =>
      { body := .unsolicited .point 0 (BitVec.ofNat 8 (n + 2)) 0, status := .success, session := 12, value := 0,
        flags := {}, stamp := 0 } }

/-- The first release: sequences 2 and 3 go to slot 2 of lap 1 and slot 0 of lap 0. -/
theorem test_release_drains :
    let r := (after (.rrelease 0x06000002) (base.setReportRing 6 burst)).reportRing 6
    r.writeIndex = 1 ∧ r.lap = false ∧ r.outstanding = 2 ∧ r.reservations = 1 ∧ r.store.length = 6 ∧
      r.unwritten.map (fun p => (p.slot, p.lap)) = [(2, true), (0, false)] := by decide +kernel

/-- A release of more than is outstanding sets BAD_INDEX (R147). -/
theorem test_release_tooMany :
    (after (.rrelease 0x06000001) (base.setReportRing 6 { burst with releaseIndex := 2, outstanding := 1 })).badIndex =
      true := by decide +kernel

/-! ### Notification and start-up (files 10 to 12) -/

/-- RR3 of the notification example with its fourth record written, and the expiry of its timer. -/
theorem test_batch_notifies :
    let r : ReportRing :=
      { ring with
        notify := .batch 4 500, unnotified := 3, batchTimer := some 0
        unwritten := [{ slot := 0, lap := true, owner := none,
                        record := { body := .job 1 0 0, status := .success, session := 0, value := 0, flags := {},
                                    stamp := 0 } }] }
    (after (.reportWriteDone 3) (base.setReportRing 3 r)).intPending = 8 ∧
      ((after (.reportWriteDone 3) (base.setReportRing 3 r)).reportRing 3).unnotified = 0 ∧
      (after (.batchTimerExpiry 3) (base.setReportRing 3 r)).intPending = 8 := by decide +kernel

/-- The bring-up of file 12: RR0 begins at 10100h. -/
theorem test_startUp :
    let s := after (.startUp 5)
      { State.reset with phase := .ready, crBaseLo := 0x10000, crJr0Size := 8, crRr0Size := 8 }
    (s.reportRing 0).base = 0x10100 ∧ (s.jobRing 0).state = .running ∧ s.run = true ∧ s.intEnable = true := by
  decide +kernel

/-! ### Witnesses: the queue and the invariants -/

theorem witness_StepRunsFrontCommand :
    { base with pending := [.stampClockAdvance] }.pending = Instr.stampClockAdvance :: [] ∧ base.pending = [] :=
  ⟨rfl, rfl⟩

/-- A state in which every invariant has something to say: S0 counts at its limit with a wait and a parked record, S1
paces S2, and RR1 is full with eight records parked. -/
def lively : State :=
  { (((((base.setSession 0
        { tally with
          count := 10, wraps := 65535, lost := 65535, waits := [0], active := [⟨10, .either, { latch := true }⟩]
          staged := some { points := [⟨0, .up, {}⟩], mode := .atWrap } }).setSession 1
        { rate with followers := [2] }).setSession 2
        { rate with windowSource := some .pacer, windowLength := none, pacer := some 1 }).setWait 0
        (some (waiting .idle))).setReportRing 1
      { ring with
        outstanding := 3, reservations := 1, writeIndex := 3
        store := List.replicate 8
          { body := .unsolicited .point 0 0 0, status := .success, session := 0, value := 0, flags := {}, stamp := 0 } })
    with pending := [.stampClockAdvance], hostMemory := [(4096, 1), (4097, 2)] }

theorem witness_SessionsStayInRange : lively.InRange ∧ ∃ t, step lively = .next t :=
  ⟨State.inRange_of_check _ (by decide +kernel), _, rfl⟩

theorem witness_ParkedRecordsMeanFullRing : lively.RingsSound ∧ ∃ t, step lively = .next t :=
  ⟨by unfold State.RingsSound ReportRing.Sound; decide +kernel, _, rfl⟩

theorem witness_WaitListsAndPoolAgree : lively.WaitsAgree ∧ ∃ t, step lively = .next t :=
  ⟨State.waitsAgree_of_check _ (by decide +kernel), _, rfl⟩

theorem witness_PacingAndFreeEntriesKept : lively.TablesAgree ∧ ∃ t, step lively = .next t :=
  ⟨State.tablesAgree_of_check _ (by decide +kernel), _, rfl⟩

theorem witness_OpenRingsNeverOverfull : lively.PlacesSound ∧ ∃ t, step lively = .next t :=
  ⟨State.placesSound_of_check _ (by decide +kernel), _, rfl⟩

theorem witness_DeviceFieldsStaySound :
    lively.DeviceSound ∧ lively.hostMemory.wf = true ∧ ∃ t, step lively = .next t :=
  ⟨by unfold State.DeviceSound; decide +kernel, by decide +kernel, _, rfl⟩

/-! ### Witnesses: taking -/

theorem witness_TakingNeedsAnEligibleRing :
    (work tally).eligible 1 = true ∧ (work tally).taking.isSome = true ∧ ∀ r, State.reset.eligible r = false := by
  decide +kernel

/-- JR0 eligible; the holder of the turn with weight left; the next ring of the search; the holder itself, last. -/
theorem witness_TakerServesTheRotation :
    (base.taking = none ∧ base.turn ≠ 0 ∧ base.eligible 0 = true) ∧
      ((rotating 1 1 3).taking = none ∧ (rotating 1 1 3).turn ≠ 0 ∧ (rotating 1 1 3).eligible 0 = false ∧
        (rotating 1 1 3).eligible (rotating 1 1 3).turn = true ∧ 1 ≤ (rotating 1 1 3).turnLeft) ∧
      ((rotating 7 0 3).eligible 0 = false ∧
        ¬((rotating 7 0 3).eligible (rotating 7 0 3).turn = true ∧ 1 ≤ (rotating 7 0 3).turnLeft) ∧
        (rotating 7 0 3).eligible 1 = true ∧
        ∀ j : JobRingId, j ≠ 0 → (rotating 7 0 3).eligible j = true →
          ((1 : JobRingId).val + 6 - (rotating 7 0 3).turn.val) % 7 ≤
            (j.val + 6 - (rotating 7 0 3).turn.val) % 7) ∧
      ∀ j : JobRingId, j ≠ 0 → { base.setJobRing 0 {} with turn := 1 }.eligible j = true → (1 + 6 - 1) % 7 ≤ (j.val + 6 - 1) % 7 := by
  decide +kernel

/-- A work ring whose report ring is OPEN, and JR0. -/
theorem witness_RecordFetchErrorBreaksTheRing : (work tally).readsFor 1 ∧ (ctl base).readsFor 0 := ⟨⟨_, rfl⟩, ⟨_, rfl⟩⟩

/-- A window end that is noted and none; no read in flight; a kind code; and each refusal in its order, at its boundary. -/
theorem witness_CommonValidationRefuses :
    (work { interval with windowEndDue := true }).WaitsAgree ∧ (work tally).settled ∧
    (∀ r, ¬ base.readsFor r) ∧ Kind.ofCode (job .outputs 0).kindCode = some .outputs ∧
      (work tally).readsFor 1 ∧ (ctl base).readsFor 0 ∧ Kind.ofCode (0x0e : JobRecord).kindCode = none ∧
      Kind.makeJobRing.isControl = true ∧ Kind.openJob.isControl = false ∧
      32 ≤ (job .openJob (field 4 32)).session.toNat ∧ (job .openJob (field 4 32)).session ≠ 255 ∧
      (job .read (field 4 31)).session.toNat = (31 : SessionId).val ∧
      ((recordArrives 1 (work tally)).session 31).state = .free ∧
      ((recordArrives 1 (work { tally with owner := some 2 })).session 0).state ≠ .free ∧
      ((recordArrives 1 (work { tally with owner := some 2 })).session 0).owner ≠ some 1 := by
  refine ⟨State.waitsAgree_of_check _ (by decide +kernel), State.settled_of_check _ (by decide +kernel), ?_⟩
  simp only [State.readsFor_iff]
  decide +kernel

/-! ### Witnesses: the session jobs -/

/-- OPEN of S5 as a TALLY session of IN0 that reports to RR1, with more fields. -/
def openRec (more : Nat) : JobRecord := job .openJob (field 4 5 + field 8 1 + field 12 255 + field 16 9 + more)

/-- OPEN of any session as a RATE follower of S0. -/
def followRec : JobRecord :=
  job .openJob (field 4 255 + field 8 1 + field 9 3 + field 12 255 + field 16 9 + field 21 1)

/-- The parameter ranges of R7 at their ends. -/
theorem test_openSetup_boundaries :
    (openSetup (openRec 0)).isSome = true ∧ (openSetup (openRec (field 10 15))).isSome = true ∧
      (openSetup (openRec (field 10 16))).isNone = true ∧ (openSetup (openRec (field 13 3))).isNone = true ∧
      (openSetup (openRec (field 23 1))).isNone = true ∧
      (openSetup (openRec (field 23 1 + field 28 1))).isSome = true ∧ (openSetup followRec).isSome = true := by
  decide +kernel

/-- Session taken, no session, bad parameter, bad ring id, ring not OPEN, and a pacer or an output that does not do. -/
theorem witness_OpenRefusalsInOrder :
    (work tally).readsFor 1 ∧ ((recordArrives 1 (work tally)).session 0).state ≠ .free ∧
      (∀ k, ((recordArrives 1 { work tally with sessions := Vector.replicate 32 tally }).session k).state ≠ .free) ∧
      Selects (openRec 0) (recordArrives 1 (work tally)) 5 ∧ Selects followRec (recordArrives 1 (work tally)) 1 ∧
      openSetup (openRec (field 9 6)) = none ∧ 8 ≤ ((openRec (field 8 7)).byte 8).toNat ∧
      ((recordArrives 1 (work tally)).reportRing 3).state ≠ .opened ∧
      ((recordArrives 1 (work tally)).reportRing 1).state = .opened ∧
      (openSetup followRec).map Session.pacer = some (some 0) ∧
      PacerUnfit (recordArrives 1 (work { tally with followers := List.replicate 8 1 })) 0 ∧
      PacerUnfit (recordArrives 1 (work {})) 0 ∧
      ¬PacerUnfit (recordArrives 1 (work { tally with owner := some 2, followers := List.replicate 7 1 })) 0 ∧
      ((openRec (field 23 0x84)).byte 23).getLsbD (2 : OutputId).val = true ∧
      (∀ m : OutputId, m < 2 → ((openRec (field 23 0x84)).byte 23).getLsbD m.val = true →
        ((recordArrives 1 ((work tally).setOutput 2 { owner := some 0 })).output m).owner = none) ∧
      ((recordArrives 1 ((work tally).setOutput 2 { owner := some 0 })).output 2).owner ≠ none := by
  simp only [State.readsFor_iff, Selects, PacerUnfit]
  decide +kernel

/-- A session with two claims, and a follower. -/
theorem witness_OpenConfiguresTheSession :
    (work tally).readsFor 1 ∧ Selects (openRec (field 23 3 + field 28 1)) (recordArrives 1 (work tally)) 5 ∧
      (openSetup (openRec (field 23 3 + field 28 1))).map (fun e => (e.claims, e.pacer)) = some (3, none) ∧
      ((openRec 0).byte 8).toNat = (1 : ReportRingId).val ∧
      ((recordArrives 1 (work tally)).reportRing 1).state = .opened ∧
      Selects followRec (recordArrives 1 (work tally)) 1 ∧
      (openSetup followRec).map Session.pacer = some (some 0) ∧ ¬PacerUnfit (recordArrives 1 (work tally)) 0 ∧
      ((recordArrives 1 (work tally)).session 0).owner = some 1 ∧
      ∀ l, ((recordArrives 1 (work tally)).output l).owner = none := by
  simp only [State.readsFor_iff, Selects, PacerUnfit]
  decide +kernel

theorem witness_CloseFreesTheSession :
    JobReaches (job .closeJob 0) 1 0 (workWaiting tally .idle) ∧ (workWaiting tally .idle).WaitsAgree ∧
      (workWaiting tally .idle).TablesAgree ∧ ((recordArrives 1 (workWaiting tally .idle)).session 0).followers = [] :=
  ⟨jobReaches_of_check _ _ _ _ 0x8000 (by decide +kernel), State.waitsAgree_of_check _ (by decide +kernel),
    State.tablesAgree_of_check _ (by decide +kernel), by decide +kernel⟩

/-- Without FORCE and with it; with no mark still out, and with one for each follower. -/
theorem witness_CloseOfAPacer :
    JobReaches (job .closeJob (field 1 1)) 1 0 pacing ∧ JobReaches (job .closeJob 0) 1 0 pacing ∧
      pacing.WaitsAgree ∧ pacing.TablesAgree ∧ ((recordArrives 1 pacing).session 0).followers ≠ [] ∧
      (job .closeJob 0).flag 0 = false ∧ (job .closeJob (field 1 1)).flag 0 = true ∧
      JobReaches (job .closeJob (field 1 1)) 1 0 marked ∧ marked.WaitsAgree ∧ marked.TablesAgree ∧
      ((recordArrives 1 marked).session 0).marksOut.flatten = [1, 2] :=
  ⟨jobReaches_of_check _ _ _ _ 0x8000 (by decide +kernel), jobReaches_of_check _ _ _ _ 0x8000 (by decide +kernel),
    State.waitsAgree_of_check _ (by decide +kernel), State.tablesAgree_of_check _ (by decide +kernel),
    by decide +kernel, by decide +kernel, by decide +kernel, jobReaches_of_check _ _ _ _ 0x8000 (by decide +kernel),
    State.waitsAgree_of_check _ (by decide +kernel), State.tablesAgree_of_check _ (by decide +kernel),
    by decide +kernel⟩

/-- Not IDLE; a follower that has lost its pacer; IDLE. -/
theorem witness_StartBeginsMeasuring :
    JobReaches (job .startJob 0) 1 0 (work tally) ∧ ((recordArrives 1 (work tally)).session 0).state ≠ .idle ∧
      JobReaches (job .startJob 0) 1 0 (work { rate with state := .idle, windowSource := some .pacer }) ∧
      ((recordArrives 1 (work { rate with state := .idle, windowSource := some .pacer })).session 0).windowSource =
        some .pacer ∧
      ((recordArrives 1 (work { rate with state := .idle, windowSource := some .pacer })).session 0).pacer = none ∧
      JobReaches (job .startJob 0) 1 0 (work { rate with state := .idle }) ∧
      ((recordArrives 1 (work { rate with state := .idle })).session 0).state = .idle ∧
      ((recordArrives 1 (work { rate with state := .idle })).session 0).windowSource ≠ some .pacer := by
  simp only [JobReaches, State.readsFor_iff]
  decide +kernel

/-- IDLE; and FAULTED with a wait. -/
theorem witness_StopEndsMeasuring :
    JobReaches (job .stopJob 0) 1 0 (work { tally with state := .idle }) ∧
      (work { tally with state := .idle }).WaitsAgree ∧
      JobReaches (job .stopJob 0) 1 0 (workWaiting { tally with state := .faulted } .idle) ∧
      (workWaiting { tally with state := .faulted } .idle).WaitsAgree :=
  ⟨jobReaches_of_check _ _ _ _ 0x8000 (by decide +kernel), State.waitsAgree_of_check _ (by decide +kernel),
    jobReaches_of_check _ _ _ _ 0x8000 (by decide +kernel), State.waitsAgree_of_check _ (by decide +kernel)⟩

/-- Above the limit, at the window length, at the limit, and just below the window length. -/
theorem witness_PresetSetsTheCount :
    JobReaches (job .preset (field 8 11)) 1 0 (work tally) ∧ (work tally).WaitsAgree ∧
      tally.limitValue < ((job .preset (field 8 11)).word 8).toNat ∧
      JobReaches (job .preset (field 8 10)) 1 0 (work tally) ∧
      ((job .preset (field 8 10)).word 8).toNat ≤ tally.limitValue ∧
      JobReaches (job .preset (field 8 5)) 1 0 (work interval) ∧ (work interval).WaitsAgree ∧
      JobReaches (job .preset (field 8 4)) 1 0 (work interval) ∧
      ((recordArrives 1 (work interval)).session 0).windowLength = some 5 ∧
      ((job .preset (field 8 4)).word 8).toNat < 5 ∧ ((job .preset (field 8 5)).word 8).toNat = 5 :=
  ⟨jobReaches_of_check _ _ _ _ 0x8000 (by decide +kernel), State.waitsAgree_of_check _ (by decide +kernel),
    by decide +kernel, jobReaches_of_check _ _ _ _ 0x8000 (by decide +kernel), by decide +kernel,
    jobReaches_of_check _ _ _ _ 0x8000 (by decide +kernel), State.waitsAgree_of_check _ (by decide +kernel),
    jobReaches_of_check _ _ _ _ 0x8000 (by decide +kernel), by decide +kernel, by decide +kernel, by decide +kernel⟩

/-- An item code of 6, items 0 and 5, and a capture that is valid or not. -/
theorem witness_ReadReportsTheItem :
    JobReaches (job .read (field 8 6)) 1 0 (work tally) ∧ ((job .read (field 8 6)).byte 8).toNat = 6 ∧
      JobReaches (job .read 0) 1 0 (work tally) ∧ ((job .read 0).byte 8).toNat = 0 ∧
      JobReaches (job .read (field 8 5)) 1 0 (work tally) ∧ ((job .read (field 8 5)).byte 8).toNat = 5 ∧
      JobReaches (job .read (field 8 1)) 1 0 (work tally) ∧
      JobReaches (job .read (field 8 1)) 1 0 (work { tally with capture := ⟨true, 4, 2⟩ }) ∧
      ((recordArrives 1 (work { tally with capture := ⟨true, 4, 2⟩ })).session 0).capture.valid = true ∧
      ((recordArrives 1 (work tally)).session 0).capture.valid = false :=
  ⟨jobReaches_of_check _ _ _ _ 0x8000 (by decide +kernel), by decide +kernel,
    jobReaches_of_check _ _ _ _ 0x8000 (by decide +kernel), by decide +kernel,
    jobReaches_of_check _ _ _ _ 0x8000 (by decide +kernel), by decide +kernel,
    jobReaches_of_check _ _ _ _ 0x8000 (by decide +kernel), jobReaches_of_check _ _ _ _ 0x8000 (by decide +kernel),
    by decide +kernel, by decide +kernel⟩

/-- A commit mode of 4, AT_WINDOW without windows, 17 points, a bad address, none, and one. -/
theorem witness_LoadPointsChecksThenFetches :
    JobReaches (job .loadPoints (field 9 4)) 1 0 (work tally) ∧ ((job .loadPoints (field 9 4)).byte 9).toNat = 4 ∧
      ((recordArrives 1 (work tally)).session 0).mode = some .tally ∧
      JobReaches (job .loadPoints (field 9 2)) 1 0 (work tally) ∧ ((job .loadPoints (field 9 2)).byte 9).toNat = 2 ∧
      JobReaches (job .loadPoints (field 9 2)) 1 0 (work rate) ∧
      ((recordArrives 1 (work rate)).session 0).mode = some .rate ∧
      JobReaches (job .loadPoints (field 8 17)) 1 0 (work tally) ∧
      ((job .loadPoints (field 8 17)).byte 8).toNat = 17 ∧
      JobReaches (job .loadPoints (field 8 16 + field 16 4)) 1 0 (work tally) ∧ ((job .loadPoints (field 8 16)).byte 8).toNat = 16 ∧
      ((job .loadPoints (field 8 16 + field 16 4)).quad 16).toNat % 8 ≠ 0 ∧
      JobReaches (job .loadPoints 0) 1 0 (work tally) ∧
      [CommitMode.now, .atWrap, .atWindow, .onCommit][((job .loadPoints 0).byte 9).toNat]? = some .now ∧
      [CommitMode.now, .atWrap, .atWindow, .onCommit][((job .loadPoints (field 9 3)).byte 9).toNat]? = some .onCommit ∧
      ((job .loadPoints 0).byte 8).toNat = 0 ∧
      JobReaches (job .loadPoints (field 8 1 + field 16 (2 ^ 64 - 8))) 1 0 (work tally) ∧
      ((job .loadPoints (field 8 1 + field 16 (2 ^ 64 - 8))).quad 16).toNat + 8 * 1 = 2 ^ 64 ∧
      2 ^ 64 < ((job .loadPoints (field 8 2 + field 16 (2 ^ 64 - 8))).quad 16).toNat + 8 * 2 :=
  ⟨jobReaches_of_check _ _ _ _ 0x8000 (by decide +kernel), by decide +kernel, by decide +kernel,
    jobReaches_of_check _ _ _ _ 0x8000 (by decide +kernel), by decide +kernel,
    jobReaches_of_check _ _ _ _ 0x8000 (by decide +kernel), by decide +kernel,
    jobReaches_of_check _ _ _ _ 0x8000 (by decide +kernel), by decide +kernel,
    jobReaches_of_check _ _ _ _ 0x8000 (by decide +kernel), by decide +kernel, by decide +kernel,
    jobReaches_of_check _ _ _ _ 0x8000 (by decide +kernel), by decide +kernel, by decide +kernel, by decide +kernel,
    jobReaches_of_check _ _ _ _ 0x8000 (by decide +kernel), by decide +kernel⟩

/-- Without and with a staged list. -/
theorem witness_CommitPointsCommitsTheStagedList :
    JobReaches (job .commitPoints 0) 1 0 (work tally) ∧ ((recordArrives 1 (work tally)).session 0).staged = none ∧
      JobReaches (job .commitPoints 0) 1 0 (work { tally with staged := some ⟨[], .atWrap⟩ }) ∧
      ((recordArrives 1 (work { tally with staged := some ⟨[], .atWrap⟩ })).session 0).staged = some ⟨[], .atWrap⟩ := by
  simp only [JobReaches, State.readsFor_iff]
  decide +kernel

theorem witness_HoldAddsHost : JobReaches (job .hold 0) 1 0 (work rate) := jobReaches_of_check _ _ _ _ 0x8000 (by decide +kernel)

theorem witness_ReleaseRemovesHostOnly :
    JobReaches (job .release 0) 1 0 (work { rate with hold := { host := true, inhibit := true } }) :=
  jobReaches_of_check _ _ _ _ 0x8000 (by decide +kernel)

/-- A bad condition code, a list of eight, no free entry, a condition met at entry, and one that is not. -/
theorem witness_AwaitTakesTheLowestEntry :
    JobReaches (job .awaitJob (field 8 5)) 1 0 (work tally) ∧ askedFor (job .awaitJob (field 8 5)) tally = none ∧
      JobReaches (job .awaitJob (field 8 3 + field 12 65535)) 1 0 (work rate) ∧
      askedFor (job .awaitJob (field 8 3 + field 12 65535)) rate = some (.windows 65535 65535) ∧
      askedFor (job .awaitJob (field 8 3 + field 12 65536)) rate = none ∧
      JobReaches (job .awaitJob (field 8 1 + field 12 10)) 1 0 (workWaiting tally .idle) ∧
      askedFor (job .awaitJob (field 8 1 + field 12 10)) tally = some (.atLeast 10) ∧
      askedFor (job .awaitJob (field 8 1 + field 12 11)) tally = none ∧
      JobReaches (job .awaitJob (field 8 4)) 1 0 (work { tally with waits := [0, 1, 2, 3, 4, 5, 6, 7] }) ∧
      8 ≤ ((recordArrives 1 (work { tally with waits := [0, 1, 2, 3, 4, 5, 6, 7] })).session 0).waits.length ∧
      (∀ x, { work tally with waits := Vector.replicate 64 (some (waiting .idle)) }.wait x ≠ none) ∧
      holdsAtTake tally (.atLeast 3) = true ∧ holdsAtTake tally (.atLeast 4) = false ∧
      (workWaiting tally .idle).wait 1 = none ∧ ∀ y : WaitId, y < 1 → (workWaiting tally .idle).wait y ≠ none :=
  ⟨jobReaches_of_check _ _ _ _ 0x8000 (by decide +kernel), by decide +kernel,
    jobReaches_of_check _ _ _ _ 0x8000 (by decide +kernel), by decide +kernel, by decide +kernel,
    jobReaches_of_check _ _ _ _ 0x8000 (by decide +kernel), by decide +kernel, by decide +kernel,
    jobReaches_of_check _ _ _ _ 0x8000 (by decide +kernel), by decide +kernel⟩

theorem witness_CancelWaitCancelsByTag :
    JobReaches (job .cancelWait (field 8 9)) 1 0 (workWaiting tally .idle) ∧ (workWaiting tally .idle).WaitsAgree ∧
      (waiting .idle).tag = (job .cancelWait (field 8 9)).half 8 :=
  ⟨jobReaches_of_check _ _ _ _ 0x8000 (by decide +kernel), State.waitsAgree_of_check _ (by decide +kernel),
    by decide +kernel⟩

/-- A free entry, a timer with one period to go, and an outstanding wait whose timer has run out. -/
theorem witness_WaitTimeoutAnswersTimeout :
    (work tally).wait 0 = none ∧ ({ waiting .idle with timer := some 1 } : WaitEntry).timer ≠ some 0 ∧
      (workWaiting tally .idle).settled ∧
      (workWaiting tally .idle).wait 0 = some (waiting .idle) ∧ (waiting .idle).timer = some 0 ∧
      (waiting .idle).deadline = some 107 :=
  ⟨by decide +kernel, by decide +kernel, State.settled_of_check _ (by decide +kernel), by decide +kernel, rfl, rfl⟩

/-- Settings 2 and 1. -/
theorem witness_OutputsSetsTheFlag :
    JobReaches (job .outputs (field 8 2)) 1 0 (work tally) ∧ ((job .outputs (field 8 2)).byte 8).toNat = 2 ∧
      JobReaches (job .outputs (field 8 1)) 1 0 (work { tally with claims := 3 }) ∧
      ((job .outputs (field 8 1)).byte 8).toNat = 1 := by
  simp only [JobReaches, State.readsFor_iff]
  decide +kernel

/-- A pulse width, a stopped timer, one with a period to go and one that has run out. -/
theorem witness_OutputLinesSetClearPulse :
    ((work { tally with pulseWidth := some 1 }).session 0).pulseWidth = some 1 ∧ (base.output 0).timer ≠ some 0 ∧
      ((base.setOutput 7 { timer := some 1, level := true }).output 7).timer ≠ some 0 ∧
      ((base.setOutput 7 { timer := some 0, level := true }).output 7).timer = some 0 := by decide +kernel

/-! ### Witnesses: the control jobs -/

/-- A MAKE_JOB_RING record. -/
def makeRec (id size base weight bound : Nat) : JobRecord :=
  job .makeJobRing (field 8 id + field 9 bound + field 10 weight + field 12 size + field 16 base)

/-- Ids 0 and 8, a ring that is there, a bad size, a report ring that is not OPEN, and a ring that passes. -/
theorem witness_MakeJobRingMakesARunningRing :
    ControlReaches (ctl base) ∧ ((makeRec 0 2 0 1 1).byte 8).toNat = 0 ∧ 7 < ((makeRec 8 2 0 1 1).byte 8).toNat ∧
      ((recordArrives 0 (ctl base)).jobRing 1).state ≠ .absent ∧
      ((recordArrives 0 (ctl base)).jobRing 7).state = .absent ∧ ((makeRec 7 1 0 1 1).half 12).toNat = 1 ∧
      ((makeRec 7 1024 32 8 2).half 12).toNat = 1024 ∧ ((makeRec 7 1024 32 8 2).quad 16).toNat = 32 ∧
      ((makeRec 7 1024 32 8 2).byte 10).toNat = 8 ∧ ((makeRec 7 1024 32 8 2).byte 9).toNat = (2 : ReportRingId).val ∧
      ((recordArrives 0 (ctl base)).reportRing 2).state = .opened ∧
      ((recordArrives 0 (ctl base)).reportRing 3).state ≠ .opened := by
  simp only [ControlReaches, State.readsFor_iff]
  decide +kernel

/-- Bad ids, ABSENT, owning sessions, with a fetch, unused; and a ring in each state for the restart. -/
theorem witness_JobRingsAreDroppedAndRestarted :
    ControlReaches (ctl base) ∧ ((job .dropJobRing (field 8 8)).byte 8).toNat = 8 ∧
      ((job .dropJobRing (field 8 1)).byte 8).toNat = (1 : JobRingId).val ∧
      ((recordArrives 0 (ctl base)).jobRing 2).state = .absent ∧
      ((recordArrives 0 (ctl base)).jobRing 1).state = .running ∧
      ((recordArrives 0 (ctl (base.setSession 0 tally))).session 0).owner = some 1 ∧
      (∀ k, ((recordArrives 0 (ctl base)).session k).owner ≠ some 1) ∧
      ((recordArrives 0 (ctl (base.setJobRing 1 { jring with fetchInFlight := true }))).jobRing 1).fetchInFlight = true ∧
      ((recordArrives 0 (ctl base)).jobRing 1).fetchInFlight = false ∧
      ((recordArrives 0 (ctl (base.setJobRing 1 { jring with state := .halted }))).jobRing 1).state = .halted ∧
      ((recordArrives 0 (ctl (base.setJobRing 1 { jring with state := .broken }))).jobRing 1).state = .broken := by
  simp only [ControlReaches, State.readsFor_iff]
  decide +kernel

/-- A MAKE_REPORT_RING or TUNE_REPORT_RING record. -/
def reportRec (k : Kind) (id mode count size time : Nat) : JobRecord :=
  job k (field 8 id + field 9 mode + field 10 count + field 12 size + field 14 time)

/-- Id 8, a ring that is there, a bad size, bad settings, and a ring that passes. -/
theorem witness_MakeReportRingOpensAnEmptyRing :
    ControlReaches (ctl base) ∧ ((reportRec .makeReportRing 8 0 0 2 0).byte 8).toNat = 8 ∧
      ((recordArrives 0 (ctl base)).reportRing 1).state ≠ .absent ∧
      ((recordArrives 0 (ctl base)).reportRing 7).state = .absent ∧
      ((reportRec .makeReportRing 7 0 0 1 0).half 12).toNat = 1 ∧
      settingsAsked (reportRec .makeReportRing 7 2 0 2 1) = none ∧
      settingsAsked (reportRec .makeReportRing 7 2 1 2 1) = some (.batch 1 1) ∧
      ((reportRec .makeReportRing 7 2 1 2 1).half 12).toNat = 2 ∧
      ((recordArrives 0 (ctl base)).jobRing 0).bound ≠ 7 := by
  simp only [ControlReaches, State.readsFor_iff]
  decide +kernel

/-- Id 8, an ABSENT ring, a bad mode, and a ring that passes. -/
theorem witness_TuneReportRingRestartsTheCount :
    ControlReaches (ctl base) ∧ ((reportRec .tuneReportRing 8 0 0 0 0).byte 8).toNat = 8 ∧
      ((recordArrives 0 (ctl base)).reportRing 7).state = .absent ∧
      ((recordArrives 0 (ctl base)).reportRing 0).state ≠ .absent ∧
      settingsAsked (reportRec .tuneReportRing 0 3 0 0 0) = none ∧
      settingsAsked (reportRec .tuneReportRing 0 1 0 0 0) = some .each := by
  simp only [ControlReaches, State.readsFor_iff]
  decide +kernel

/-- RR2 with one write under way. -/
def writing : ReportRing :=
  { ring with
    outstanding := 1, writeIndex := 1
    unwritten :=
      [{ slot := 0, lap := true, owner := none,
         record := { body := .job 1 0 0, status := .success, session := 0, value := 0, flags := {}, stamp := 0 } }] }

/-- RR1 BROKEN, with JR1 bound to it and S0 owned by JR1. -/
def broken : State := ctl ((base.setSession 0 tally).setReportRing 1 { ring with state := .broken })

/-- Ids, ABSENT, used, unused with and without a write; the drop that waits, of a ring that is OPEN and of one that has
broken. -/
theorem witness_DropReportRingWaitsForItsWrites :
    let waits := { base with taking := some { ring := 0, stage := .dropping 2 5 } }
    let breaks := { broken with taking := some { ring := 0, stage := .dropping 1 5 } }
    waits.settled ∧ breaks.settled ∧ breaks.WaitsAgree ∧ breaks.TablesAgree ∧ ControlReaches (ctl base) ∧
      ((recordArrives 0 (ctl base)).reportRing 7).state = .absent ∧
      usesOf (recordArrives 0 (ctl base)) 1 = 1 ∧ usesOf (recordArrives 0 (ctl base)) 2 = 0 ∧
      ((recordArrives 0 (ctl base)).reportRing 2).state = .opened ∧
      ((recordArrives 0 (ctl base)).reportRing 2).unwritten = [] ∧
      ((recordArrives 0 (ctl (base.setReportRing 2 writing))).reportRing 2).unwritten ≠ [] ∧ base.taking = none ∧
      (waits.reportRing 2).unwritten = [] ∧ (breaks.reportRing 1).state = .broken ∧
      (breaks.reportRing 1).unwritten = [] :=
  ⟨State.settled_of_check _ (by decide +kernel), State.settled_of_check _ (by decide +kernel),
    State.waitsAgree_of_check _ (by decide +kernel), State.tablesAgree_of_check _ (by decide +kernel), ⟨_, rfl⟩,
    by decide +kernel⟩

theorem witness_CascadeRemovesABrokenRing :
    ControlReaches broken ∧ broken.WaitsAgree ∧ broken.TablesAgree ∧
      ((job .dropReportRing (field 8 1)).byte 8).toNat = (1 : ReportRingId).val ∧
      ((recordArrives 0 broken).reportRing 1).state = .broken :=
  ⟨⟨_, rfl⟩, State.waitsAgree_of_check _ (by decide +kernel), State.tablesAgree_of_check _ (by decide +kernel),
    by decide +kernel, by decide +kernel⟩

/-- A LINE_SETUP record. -/
def lineRec (line polarity width : Nat) : JobRecord := job .lineSetup (field 8 line + field 9 polarity + field 10 width)

/-- A bad line, polarity or width; an ACTIVE session on the line; an IDLE session whose inhibit line it is; and a FAULTED
QUAD session whose line B it is. -/
theorem witness_LineSetupReplacesTheSetup :
    ControlReaches (ctl base) ∧ 15 < ((lineRec 16 0 2).byte 8).toNat ∧ 1 < ((lineRec 0 2 2).byte 9).toNat ∧
      ((lineRec 0 0 1).byte 10).toNat < 2 ∧ ((lineRec 15 1 255).byte 8).toNat = (15 : LineId).val ∧
      ((lineRec 15 1 255).byte 9).toNat = 1 ∧ 2 ≤ ((lineRec 15 1 255).byte 10).toNat ∧
      ((recordArrives 0 (ctl (base.setSession 0 tally))).session 0).state = .active ∧
      ((recordArrives 0 (ctl (base.setSession 0 tally))).session 0).lineA = some 0 ∧
      ((recordArrives 0 (ctl (base.setSession 0 { tally with state := .idle, inhibitLine := some 15 }))).session 0).inhibitLine =
        some 15 ∧
      ((recordArrives 0 (ctl (base.setSession 0 { quad with state := .faulted }))).session 0).lineB = some 1 ∧
      (∀ k, ((recordArrives 0 (ctl (base.setSession 0 { quad with state := .faulted }))).session k).state ≠ .active) ∧
      (∀ k, ((recordArrives 0 (ctl (base.setSession 0 { tally with state := .idle, inhibitLine := some 15 }))).session k).state
        ≠ .active) := by
  simp only [ControlReaches, State.readsFor_iff]
  decide +kernel

/-! ### Witnesses: lines, edges and ticks -/

/-- In reset; no run completed, one sample before the width; one completed, at the width. -/
theorem witness_RawPinSampleRunsTheFilters :
    State.reset.phase = .hardwareReset ∧ base.phase ≠ .hardwareReset ∧
      (∀ l : LineId, (1 : BitVec 16).getLsbD l.val = ((base.setLine 0 { runCount := 2 }).line l).accepted ∨
        ((base.setLine 0 { runCount := 2 }).line l).runCount + 1 < ((base.setLine 0 { runCount := 2 }).line l).width) ∧
      ∀ l : LineId, (1 : BitVec 16).getLsbD l.val =
        decide ((1 : BitVec 16).getLsbD l.val ≠ ((base.setLine 0 { runCount := 3 }).line l).accepted ∧
          ((base.setLine 0 { runCount := 3 }).line l).width ≤
            ((base.setLine 0 { runCount := 3 }).line l).runCount + 1) := by decide +kernel

/-- IN0 rises to S0, which counts its edges, and to S1, whose inhibit line it is. -/
def edging : State :=
  ((work tally).setSession 1 { rate with lineA := some 3, inhibitLine := some 0 }).setLine 0 { runCount := 3 }

/-- No filter completes; two sessions hear one edge, and the plan takes a mark between them; each role at its session. -/
theorem witness_EdgesActByRole :
    edging.settled ∧ edging.phase ≠ .hardwareReset ∧
      (∀ l : LineId, ¬((2 : BitVec 16).getLsbD l.val = true ∧ (edging.line l).width ≤ (edging.line l).runCount + 1)) ∧
      (∀ l : LineId, (1 : BitVec 16).getLsbD l.val = true ↔
        ((3 : BitVec 16).getLsbD l.val = true ∧ (edging.line l).width ≤ (edging.line l).runCount + 1)) ∧
      EdgePlan 1 edging [(1, .inhibit), (2, .mark), (0, .phase)] ∧
      ([(1, .phase), (2, .mark), (1, .inhibit)] : List Delivery).Nodup ∧
      ((work tally).session 0).lineA = some 0 ∧ ((work tally).session 0).edgeSelect = some .rising ∧
      Counts tally ∧ selects .rising true = true ∧ selects .rising false = false ∧
      ((work { tally with mode := some .split, lineB := some 1 }).session 0).lineB = some 1 ∧
      ((work quad).session 0).mode = some .quad ∧ ((work span).session 0).mode = some .span ∧
      ((work span).session 0).windowOpen = true ∧
      ((work { span with windowOpen := false }).session 0).windowOpen = false ∧
      ((work { span with state := .idle }).session 0).state ≠ .active ∧ (edging.session 1).inhibitLine = some 0 := by
  refine ⟨State.settled_of_check _ (by decide +kernel), by decide +kernel, by decide +kernel, by decide +kernel,
    ⟨by decide +kernel, fun k role h => ?_⟩, ?_⟩
  · unfold HearsIn
    revert k
    cases role with
    | phase => decide +kernel
    | lineB => decide +kernel
    | inhibit => decide +kernel
    | mark => exact absurd rfl h
  · unfold Counts
    decide +kernel

/-- Lines, reference and each change of the pair, counting and not. -/
theorem witness_PairSamplesStepOrAreIllegal :
    (workWaiting { quad with policy := some .fault } .idle).WaitsAgree ∧
      ((workWaiting { quad with policy := some .fault } .idle).session 0).policy = some .fault ∧
      ((work quad).session 0).lineA = some 0 ∧ ((work quad).session 0).lineB = some 1 ∧
      ((work quad).session 0).pairRef = some (false, false) ∧ ((work quad).session 0).state = .active ∧
      ((work quad).session 0).hold = {} ∧ ((work quad).session 0).resolution = some .x4 ∧
      ((work quad).level 0, (work quad).level 1) = (false, false) ∧
      ((high 0 (work quad)).level 0, (high 0 (work quad)).level 1) = (true, false) ∧
      ((high 1 (work quad)).level 0, (high 1 (work quad)).level 1) = (false, true) ∧
      ((high 1 (high 0 (work quad))).level 0, (high 1 (high 0 (work quad))).level 1) = (true, true) ∧
      ((work { quad with state := .idle }).session 0).state ≠ .active :=
  ⟨State.waitsAgree_of_check _ (by decide +kernel), by decide +kernel⟩

/-- No session that takes the tick; one of each timed mode; a plan with a mark and a window end in it; a window that has
run out, and one a tick before. -/
theorem witness_TicksDriveTimedSessions :
    (work rate).settled ∧
      (∀ j, j ≠ 0 → ¬(((work rate).session j).state = .active ∧ ((work rate).session j).tick = some .us1)) ∧
      ((work rate).session 0).windowLength ≠ some ((work rate).session 0).elapsed ∧
      ((work rate).session 0).tick = some .us1 ∧ ((work span).session 0).tick = some .us1 ∧
      ((work interval).session 0).tick = some .us1 ∧ ((work tally).session 0).tick ≠ some .us1 ∧
      TickPlan ((0, .windowEnd) :: (1, .mark) :: allTicks) ∧ TimerExpired { rate with elapsed := 5 } ∧
      ¬TimerExpired { rate with elapsed := 4 } ∧ ({ interval with windowEndDue := true } : Session).windowEndDue = true := by
  refine ⟨State.settled_of_check _ (by decide +kernel), ?_⟩
  unfold TickPlan TimerExpired
  decide +kernel

/-- A limit; steps in both directions from inside and from the ends of the range, hitting and not, one that commits; and an
ascending list. -/
theorem witness_StepEffectsInOrder :
    wrapping.InRange ∧ wrapping.WaitsAgree ∧
      HitBy [⟨0, .up, { latch := true, report := true, hold := true }⟩] 0 .up
        (some (0, ⟨0, .up, { latch := true, report := true, hold := true }⟩)) ∧
      (work tally).InRange ∧ (work tally).WaitsAgree ∧ HitBy [] 4 .up none ∧ HitBy [⟨2, .up, {}⟩] 2 .down none ∧
      (work { tally with count := 0 }).InRange ∧ tally.limit = some 10 ∧ Wraps .up 10 10 ∧ ¬Wraps .up 9 10 ∧
      Wraps .down 0 10 ∧ ¬Wraps .down 1 10 ∧
      ([⟨2, .up, {}⟩, ⟨3, .up, {}⟩] : List Point).Pairwise (fun p q => p.value < q.value) :=
  ⟨State.inRange_of_check _ (by decide +kernel), State.waitsAgree_of_check _ (by decide +kernel), by simp [HitBy],
    State.inRange_of_check _ (by decide +kernel), State.waitsAgree_of_check _ (by decide +kernel), by simp [HitBy],
    by simp [HitBy], State.inRange_of_check _ (by decide +kernel), by unfold Wraps; decide +kernel⟩

theorem witness_StepsMeetWaitsInListOrder :
    (workWaiting tally (.reach 4 .up)).WaitsAgree ∧
      HitBy ((stepSession 0 .up (workWaiting tally (.reach 4 .up))).session 0).active 4 .up none :=
  ⟨State.waitsAgree_of_check _ (by decide +kernel), fun p hp => by
    have h : ((stepSession 0 .up (workWaiting tally (.reach 4 .up))).session 0).active = [] := by decide +kernel
    rw [h] at hp
    cases hp⟩

/-- A hit with LATCH, and a READ of a valid capture. -/
theorem witness_LatchCapturesCountAndStamp :
    findHit 0 .up 0 ((wrapping.updSession 0 (·.steppedAndCommitted .up)).session 0).active =
        some (0, ⟨0, .up, { latch := true, report := true, hold := true }⟩) ∧
      JobReaches (job .read (field 8 1)) 1 0 (work { tally with capture := ⟨true, 4, 2⟩ }) ∧
      ((job .read (field 8 1)).byte 8).toNat = 1 ∧
      ((recordArrives 1 (work { tally with capture := ⟨true, 4, 2⟩ })).session 0).capture.valid = true := by
  simp only [JobReaches, State.readsFor_iff]
  decide +kernel

/-! ### Witnesses: fetches, windows and marks -/

/-- An array that passes, with its last value at the limit, one whose second value does not rise, and one of which every
entry passes. -/
theorem witness_ArrayCheckNamesTheFirstBadEntry :
    (match checkPoints 10 0 0 none [0, 10] with | .ok l => l | .error _ => []) = [⟨0, .up, {}⟩, ⟨10, .up, {}⟩] ∧
      (match checkPoints 10 0 0 none [10, 10] with | .error n => n | .ok _ => 99) = 1 ∧
      ∀ (n : Nat) (p : PointEntry), ([10] : List PointEntry)[n]? = some p → EntryGood p none 10 0 := by
  refine ⟨by decide +kernel, by decide +kernel, fun n p h => ?_⟩
  cases n with
  | zero =>
    simp only [List.getElem?_cons_zero, Option.some.injEq] at h
    subst h
    exact ⟨fun v h => (nomatch h), by decide +kernel⟩
  | succ n => simp at h

/-- S0 and one fetch of one point. -/
def fetching (isVoid orphan : Bool) : State :=
  { base.setSession 0 tally with
    fetches :=
      [{ ring := 1, tag := 3, session := 0, points := 1, address := 8, mode := .now, isVoid, orphan, reportRing := 1 }] }

/-- Each end of a fetch: orphan, void, a list that passes at the limit, one that fails just above it, one of another length
and an entry that is not read. -/
theorem witness_PointFetchEndsWithOneAnswer :
    (fetching false false).settled ∧ (fetching true false).settled ∧ (fetching true true).settled ∧
      (fetching false false).fetches[0]?.map (fun f => (f.orphan, f.isVoid, f.points)) = some (false, false, 1) ∧
      (fetching true false).fetches[0]?.map (fun f => (f.orphan, f.isVoid)) = some (false, true) ∧
      (fetching true true).fetches[0]?.map (fun f => f.orphan) = some true ∧
      (match checkPoints 10 0 0 none [10] with | .ok l => l | .error _ => []) = [⟨10, .up, {}⟩] ∧
      (match checkPoints 10 0 0 none [11] with | .error n => n | .ok _ => 99) = 0 ∧
      ([10, 11] : List PointEntry).length ≠ 1 ∧ (1 : Nat) ≤ 1 :=
  ⟨State.settled_of_check _ (by decide +kernel), State.settled_of_check _ (by decide +kernel),
    State.settled_of_check _ (by decide +kernel), by decide +kernel⟩

/-- A window end that is noted while a filter is about to complete, a fetch is in flight, a wait has run out and a drop
waits. -/
def noted : State :=
  { (workWaiting { interval with windowEndDue := true } .idle).setLine 0 { runCount := 3 } with
    taking := some { ring := 0, stage := .dropping 2 5 }, fetches := (fetching false false).fetches }

/-- Each event that a noted window end comes before; a window timer that has run out, one that has not, a window end that
is due and one that is not, with a wait for windows. -/
theorem witness_WindowEndsTakeEffectWhole :
    noted.WaitsAgree ∧ (work { interval with windowEndDue := true }).WaitsAgree ∧
      (workWaiting { rate with elapsed := 5 } (.windows 2 1)).WaitsAgree ∧
      TimerExpired ((workWaiting { rate with elapsed := 5 } (.windows 2 1)).session 0) ∧
      ¬TimerExpired ((work rate).session 0) ∧
      ((work { interval with windowEndDue := true }).session 0).windowEndDue = true ∧
      ((work interval).session 0).windowEndDue = false ∧ noted.phase ≠ .hardwareReset ∧
      (∃ l : LineId, (1 : BitVec 16).getLsbD l.val = true ∧ (noted.line l).width ≤ (noted.line l).runCount + 1) ∧
      noted.fetches[0]?.map PointFetch.points = some 1 ∧ noted.wait 0 = some (waiting .idle) ∧
      (waiting .idle).timer = some 0 ∧ (waiting .idle).deadline = some 107 ∧
      ((settle noted).reportRing 2).unwritten = [] := by
  refine ⟨State.waitsAgree_of_check _ (by decide +kernel), State.waitsAgree_of_check _ (by decide +kernel),
    State.waitsAgree_of_check _ (by decide +kernel), ?_⟩
  unfold TimerExpired
  decide +kernel

/-- A window end that a step has noted comes before the tick that follows: the tick counts in the new window (R54). -/
theorem test_noted_endsBeforeTheTick :
    let s := work { interval with windowEndDue := true, count := 5 }
    ((after (.tick .us1 []) s).session 0).count = 1 ∧ ((after (.tick .us1 []) s).session 0).windowEndDue = false := by
  decide +kernel

/-- No pacer; no mark; the turn of another; a mark at a session with a window, at one without and at one that is not
ACTIVE. -/
theorem witness_PaceMarksBeginAndEndWindows :
    let other := marked.updSession 1 (fun e => { e with state := .idle })
    marked.settled ∧ marked.WaitsAgree ∧ other.settled ∧ other.WaitsAgree ∧ (other.session 1).state ≠ .active ∧
      (marked.session 0).pacer = none ∧ (pacing.session 1).pacer = some 0 ∧ (pacing.session 0).marksOut = [] ∧
      (marked.session 2).pacer = some 0 ∧ (marked.session 1).pacer = some 0 ∧
      (marked.session 0).marksOut = [] ++ [1, 2] :: [] ∧ ([1, 2] : List SessionId).head? ≠ some 2 ∧
      (marked.session 1).state = .active ∧ (marked.session 1).windowOpen = true ∧
      (marked.session 2).windowOpen = false :=
  ⟨State.settled_of_check _ (by decide +kernel), State.waitsAgree_of_check _ (by decide +kernel),
    State.settled_of_check _ (by decide +kernel), State.waitsAgree_of_check _ (by decide +kernel), by decide +kernel⟩

/-! ### Witnesses: report rings, registers and resets -/

/-- A ring that takes the record, one that parks it, one that drops it, and one that is not OPEN. -/
theorem witness_UnsolicitedRecordsParkAndDrainInOrder :
    ((work tally).session 0).reportRing = some 1 ∧ ((work tally).reportRing 1).state = .opened ∧
      (ring.withUnsolicited writing.unwritten[0].record none).isSome = true ∧
      ({ ring with outstanding := 4 }.withUnsolicited writing.unwritten[0].record none).isSome = true ∧
      ({ ring with outstanding := 4, store := List.replicate 8 writing.unwritten[0].record }.withUnsolicited
        writing.unwritten[0].record none).isNone = true ∧
      (broken.reportRing 1).state ≠ .opened ∧ writing.writeIndex < writing.size := by decide +kernel

/-- The last drain of the report-ring example: of five parked records and one more the first three take slots 3, 0 and 1,
with the lap bit flipping where the write index returns to 0 (file 12, "a report ring under pressure"). -/
theorem test_drain_flipsTheLap :
    let parked : Nat → ReportRecord := fun n =>
      { body := .unsolicited .point 0 (BitVec.ofNat 8 n) 0, status := .success, session := 5, value := 0, flags := {},
        stamp := 0 }
    let q := { ring with writeIndex := 3, lap := false, outstanding := 1, store := [5, 6, 7, 8, 9, 12].map parked }.drain
    q.writeIndex = 2 ∧ q.lap = true ∧ q.outstanding = 4 ∧ q.store = [8, 9, 12].map parked ∧
      q.unwritten.map (fun p => (p.slot, p.lap, p.owner)) = [(3, false, some 5), (0, true, some 5), (1, true, some 5)] := by
  decide +kernel

/-- The widest numbers that fit their fields; one write under way; and a timer that is stopped, has a period to go or has
run out. -/
theorem witness_ReportWriteDoneAndBatchTimerNotify :
    1023 < 1024 ∧ 15 < 16 ∧ 65535 < 65536 ∧
    ((base.setReportRing 2 writing).reportRing 2).unwritten = writing.unwritten[0] :: [] ∧
      (base.reportRing 2).batchTimer ≠ some 0 ∧
      ((base.setReportRing 2 { writing with batchTimer := some 1 }).reportRing 2).batchTimer ≠ some 0 ∧
      ((base.setReportRing 2 { writing with batchTimer := some 0 }).reportRing 2).batchTimer = some 0 := by decide +kernel

/-- A work ring and RR0. -/
theorem witness_ReportWriteErrorBreaksTheRing :
    ((base.setReportRing 2 writing).reportRing 2).unwritten ≠ [] ∧
      ((base.setReportRing 0 writing).reportRing 0).unwritten ≠ [] ∧ (base.session 0).lost ≤ 65535 := by decide +kernel

/-- Not READY; id 8; an index at the size and one below it; a count of what is outstanding and one more. -/
theorem witness_IndexWritesAreTakenOrSetBadIndex :
    State.reset.phase ≠ .ready ∧ base.phase = .ready ∧ ((0x08000000 : Word32).extractLsb' 24 8).toNat = 8 ∧
      ((0x01000008 : Word32).extractLsb' 24 8).toNat = (1 : JobRingId).val ∧
      (base.jobRing 1).size ≤ ((0x01000008 : Word32).extractLsb' 0 16).toNat ∧
      ((0x01000007 : Word32).extractLsb' 0 16).toNat < (base.jobRing 1).size ∧
      ((base.setReportRing 2 writing).reportRing 2).outstanding = 1 ∧
      (((0x02000001 : Word32).extractLsb' 0 16).toNat + 4 - 0) % 4 = 1 ∧
      (((0x02000002 : Word32).extractLsb' 0 16).toNat + 4 - 0) % 4 = 2 := by decide +kernel

theorem witness_RegisterWritesActByOffset :
    State.reset.phase ≠ .ready ∧ base.phase = .ready ∧ base.run = true ∧ { base with run := false }.run = false ∧
      0x24 ∉ [0x00, 0x04, 0x08, 0x0c, 0x10, 0x14, 0x18, 0x1c, 0x20] := by
  decide +kernel

/-- Outside the start-up: a word without RESET; FATAL, and RUN 1 to 1. -/
theorem witness_ControlWritesSetRunAndIntEnable :
    base.phase = .ready ∧ (5 : Word32).getLsbD 1 = false ∧ { base with fatalCause := .rr0Broken }.fatalCause ≠ .none ∧
      base.fatalCause = .none ∧
      ¬((5 : Word32).getLsbD 0 = true ∧ base.run = false ∧ (base.jobRing 0).state = .absent) := by decide +kernel

/-- A control region at the largest sizes, and one of size 1. -/
theorem witness_StartUpMakesTheControlRings :
    let s := { State.reset with phase := .ready, crJr0Size := 256, crRr0Size := 256 }
    s.phase = .ready ∧ (1 : Word32).getLsbD 1 = false ∧ (1 : Word32).getLsbD 0 = true ∧ s.run = false ∧
      s.fatalCause = .none ∧ (s.jobRing 0).state = .absent ∧ s.crJr0Size.toNat = 256 ∧
      ¬(2 ≤ ({ s with crJr0Size := 1 } : State).crJr0Size.toNat) := by decide +kernel

theorem witness_IntNFollowsEnableAndPending :
    base.phase = .ready ∧ (6 : Word32).getLsbD 1 = true ∧ (4 : Word32).getLsbD 1 = false := by decide +kernel

/-- READY, in the reset, and elsewhere; a ring without a write of before a reset, and one with two. -/
theorem witness_EngineResetFreesEverything :
    base.phase = .ready ∧ (2 : Word32).getLsbD 1 = true ∧ { base with phase := .engineReset }.phase = .engineReset ∧
      base.phase ≠ .engineReset ∧ (base.reportRing 2).unwritten = [] ∧ (∀ x ∈ base.strays, x.ring ≠ 2) ∧
      { base with strays := [⟨1, 0, 1⟩, ⟨2, 0, 2⟩, ⟨2, 0, 3⟩] }.strays =
        [⟨1, 0, 1⟩] ++ (⟨2, 0, 2⟩ : StrayWrite) :: [⟨2, 0, 3⟩] ∧
      ∀ y ∈ [(⟨1, 0, 1⟩ : StrayWrite)], y.ring ≠ 2 := by decide +kernel

/-- Each phase, and the stamp clock at its end. -/
theorem witness_HardwareResetInitialisationAndStampClock :
    State.reset.phase = .hardwareReset ∧ base.phase ≠ .hardwareReset ∧
      { base with phase := .initialising }.phase = .initialising ∧ base.phase ≠ .initialising ∧
      { base with stamp := 4294967295 }.stamp = 4294967295 := by decide +kernel

end Sys2Proof.Tests
end

/-!
PROOFS. Waits that complete in list order, said once for every event that ends waits by their conditions (R97, R103,
R106); the agreement of wait lists and pool over the arrival of a record (R96, R97); and PRESET (R31, R32).
-/

namespace Sys2Proof.Machine

/-! ### The frame of records and waits -/

/-- Only session entries, wait entries and report rings differ: what a record or the completion of a wait can reach. -/
def RecordFrame (s t : State) : Prop :=
  t = { s with sessions := t.sessions, waits := t.waits, reportRings := t.reportRings }

theorem RecordFrame.refl (s : State) : RecordFrame s s := rfl

theorem RecordFrame.trans {s t u : State} (h : RecordFrame s t) (g : RecordFrame t u) : RecordFrame s u := by
  unfold RecordFrame at *
  rw [g, h]

theorem RecordFrame.jobRing {s t : State} (h : RecordFrame s t) (j : JobRingId) : t.jobRing j = s.jobRing j :=
  State.jobRing_congr s t (by rw [h]) j

theorem RecordFrame.stamp {s t : State} (h : RecordFrame s t) : t.stamp = s.stamp := by rw [h]

theorem recordFrame_updSession (s : State) (i : SessionId) (f : Session → Session) :
    RecordFrame s (s.updSession i f) := rfl

theorem recordFrame_handJob (q : ReportRingId) (rec : ReportRecord) (s : State) : RecordFrame s (handJob q rec s) := by
  unfold handJob
  split <;> rfl

theorem recordFrame_freeWait (w : WaitId) (s : State) : RecordFrame s (freeWait w s) := by
  unfold freeWait
  split <;> rfl

theorem recordFrame_completeWait (w : WaitId) (status : Status) (s : State) :
    RecordFrame s (completeWait w status s) := by
  unfold completeWait completeWaitAt
  split
  · rfl
  · exact (recordFrame_freeWait w s).trans (recordFrame_handJob _ _ _)

/-! ### Waits that complete in list order (R97, R106) -/

/-- The JOB record of one wait, if the event gives it a status (R106). -/
def waitRecord (ends : WaitEntry → Option Status) (k : SessionId) (count : Nat) (t : State) (w : WaitId) :
    Option (ReportRingId × ReportRecord) :=
  (t.wait w).bind fun e =>
    (ends e).map fun status =>
      (e.reportRing,
        { body := .job e.ring (t.jobRing e.ring).take e.tag, status, session := toByte k.val,
          value := toWord count, flags := {}, stamp := t.stamp })

theorem waitRecords_eq (ends : WaitEntry → Option Status) (k : SessionId) (count : Nat) (t : State) :
    waitRecords ends k count t = (t.session k).waits.filterMap (waitRecord ends k count t) := rfl

/-- `u` is `s` after the waits of `l` to which the event gives a status have completed, in list order; all are waits of
session `k`. -/
structure WaitsCompleted (ends : WaitEntry → Option Status) (k : SessionId) (l : List WaitId) (s u : State) : Prop where
  frame : RecordFrame s u
  others : OtherSessionsKept k s u
  session : u.session k =
    { s.session k with waits := (s.session k).waits.diff (l.filter (endsWait ends s)) }
  wait : ∀ x, u.wait x = if x ∈ l ∧ endsWait ends s x = true then none else s.wait x
  records : Handed (l.filterMap (waitRecord ends k (s.session k).count s)) s u

theorem WaitsCompleted.nil (ends : WaitEntry → Option Status) (k : SessionId) (s : State) :
    WaitsCompleted ends k [] s s where
  frame := .refl s
  others := fun _ _ => rfl
  session := rfl
  wait := by simp
  records := fun _ => (handedRing_nil _ _).symm

/-- A wait at the head of the list to which the event gives no status is passed over. -/
theorem WaitsCompleted.cons_kept {ends : WaitEntry → Option Status} {k : SessionId} {w : WaitId} {l : List WaitId}
    {s u : State} {e : WaitEntry} (found : s.wait w = some e) (kept : ends e = none)
    (rest : WaitsCompleted ends k l s u) : WaitsCompleted ends k (w :: l) s u := by
  have stays : endsWait ends s w = false := by simp [endsWait, found, kept]
  have silent : waitRecord ends k (s.session k).count s w = none := by simp [waitRecord, found, kept]
  refine ⟨rest.frame, rest.others, ?_, fun x => ?_, ?_⟩
  · rw [rest.session, List.filter_cons_of_neg (by simp [stays])]
  · rw [rest.wait]
    by_cases hx : x = w
    · simp [hx, stays]
    · simp [hx]
  · rw [List.filterMap_cons_none silent]
    exact rest.records

/-- A wait at the head of the list to which the event gives a status completes, and the rest of the list follows. -/
theorem WaitsCompleted.cons_ended {ends : WaitEntry → Option Status} {k : SessionId} {w : WaitId} {l : List WaitId}
    {s u : State} {e : WaitEntry} {status : Status} (found : s.wait w = some e) (own : e.session = k)
    (ended : ends e = some status) (fresh : w ∉ l) (rest : WaitsCompleted ends k l (completeWait w status s) u) :
    WaitsCompleted ends k (w :: l) s u := by
  have frame := recordFrame_completeWait w status s
  have entry (i : SessionId) := completeWaitAt_session w status s.stamp s e found i
  have pool (x : WaitId) : (completeWait w status s).wait x = if x = w then none else s.wait x :=
    completeWaitAt_wait w x status s.stamp s
  have ends_w : endsWait ends s w = true := by simp [endsWait, found, ended]
  have same_ends : ∀ x ∈ l, endsWait ends (completeWait w status s) x = endsWait ends s x := by
    intro x hx
    simp [endsWait, pool, ne_of_mem_of_not_mem hx fresh]
  have same_record : ∀ x ∈ l, ∀ count,
      waitRecord ends k count (completeWait w status s) x = waitRecord ends k count s x := by
    intro x hx count
    simp [waitRecord, pool, ne_of_mem_of_not_mem hx fresh, frame.jobRing, frame.stamp]
  have entry_k : (completeWait w status s).session k =
      { s.session k with waits := (s.session k).waits.erase w } := by
    rw [completeWait, entry, if_pos own.symm]
  refine ⟨frame.trans rest.frame, fun j hj => ?_, ?_, fun x => ?_, fun q => ?_⟩
  · rw [rest.others j hj, completeWait, entry, if_neg (own ▸ hj)]
  · rw [rest.session, entry_k, List.filter_cons_of_pos ends_w, List.filter_congr same_ends, List.diff_cons]
  · rw [rest.wait, pool]
    by_cases hx : x = w
    · simp [hx, ends_w]
    · by_cases hl : x ∈ l
      · simp [hx, hl, same_ends x hl]
      · simp [hx, hl]
  · have first : waitRecord ends k (s.session k).count s w =
        some (e.reportRing, jobRecord e.ring (s.jobRing e.ring).take e.tag
          { status, session := toByte k.val, value := toWord (s.session k).count, stamp := s.stamp }) := by
      simp [waitRecord, found, ended, jobRecord]
    have head := completeWaitAt_reportRing w status s.stamp s e found q
    rw [own] at head
    rw [List.filterMap_cons_some first, handedRing_cons, ← head, rest.records q, entry_k]
    congr 1
    exact List.filterMap_congr fun x hx => same_record x hx _

/-- Completing a list of different waits of one session completes exactly those the event ends, in list order. -/
theorem completeList_completed (choose : WaitCond → Option Status) (k : SessionId) (l : List WaitId) (s : State)
    (distinct : l.Nodup) (own : ∀ w ∈ l, ∃ e, s.wait w = some e ∧ e.session = k) :
    WaitsCompleted (fun e => choose e.cond) k l s (completeList choose l s) := by
  induction l generalizing s with
  | nil => exact .nil _ k s
  | cons w rest ih =>
    obtain ⟨fresh, distinct⟩ := List.nodup_cons.mp distinct
    obtain ⟨e, found, mine⟩ := own w (by simp)
    simp only [completeList, found]
    cases verdict : choose e.cond with
    | none => exact .cons_kept found verdict (ih s distinct fun x hx => own x (by simp [hx]))
    | some status =>
      refine .cons_ended found mine verdict fresh (ih _ distinct fun x hx => ?_)
      rw [completeWait, completeWaitAt_wait, if_neg (ne_of_mem_of_not_mem hx fresh)]
      exact own x (by simp [hx])

/-- Completing a session's waits leaves its list without those the event ends. -/
theorem completeWaits_completed (choose : WaitCond → Option Status) (k : SessionId) (s : State) (agree : s.WaitsAgree) :
    WaitsCompleted (fun e => choose e.cond) k (s.session k).waits s (completeWaits k choose s) := by
  obtain ⟨listed, sizes, -⟩ := agree
  exact completeList_completed choose k _ s (sizes k).1 fun w hw => (listed k w).mp hw

/-- The list that is left when the event has passed a session's whole list. -/
theorem diff_ended_eq_keptWaits (ends : WaitEntry → Option Status) (k : SessionId) (s : State)
    (distinct : (s.session k).waits.Nodup) :
    (s.session k).waits.diff ((s.session k).waits.filter (endsWait ends s)) = keptWaits ends k s := by
  rw [distinct.sdiff_eq_filter, keptWaits]
  refine List.filter_congr fun w hw => ?_
  simp [hw]

/-! ### Wait lists and pool agree (R96, R97) -/

/-- The agreement is about the lists, the states and the sessions that outstanding entries name, and nothing else. -/
theorem State.WaitsAgree.of_same {s t : State} (agree : s.WaitsAgree)
    (pool : ∀ w, (t.wait w).map WaitEntry.session = (s.wait w).map WaitEntry.session)
    (lists : ∀ k, (t.session k).waits = (s.session k).waits) (states : ∀ k, (t.session k).state = (s.session k).state) :
    t.WaitsAgree := by
  obtain ⟨listed, sizes, free⟩ := agree
  have named (u : State) (w : WaitId) (k : SessionId) :
      (∃ e, u.wait w = some e ∧ e.session = k) ↔ (u.wait w).map WaitEntry.session = some k := by
    simp
  refine ⟨fun k w => ?_, fun k => ?_, fun k => ?_⟩
  · rw [lists, listed, named, named, pool]
  · rw [lists]
    exact sizes k
  · rw [lists, states]
    exact free k

/-- A wait that completes leaves the pool and its session's list together. -/
theorem State.WaitsAgree.completeWait {s : State} (agree : s.WaitsAgree) (w : WaitId) (status : Status) :
    (completeWait w status s).WaitsAgree := by
  cases found : s.wait w with
  | none => simpa [Machine.completeWait, completeWaitAt, found] using agree
  | some e =>
    obtain ⟨listed, sizes, free⟩ := agree
    have lists (k : SessionId) : ((Machine.completeWait w status s).session k).waits =
        if k = e.session then (s.session k).waits.erase w else (s.session k).waits := by
      rw [Machine.completeWait, completeWaitAt_session w status s.stamp s e found]
      split <;> rfl
    have states (k : SessionId) : ((Machine.completeWait w status s).session k).state = (s.session k).state := by
      rw [Machine.completeWait, completeWaitAt_session w status s.stamp s e found]
      split <;> rfl
    refine ⟨fun k x => ?_, fun k => ?_, fun k isFree => ?_⟩
    · rw [lists, Machine.completeWait, completeWaitAt_wait]
      by_cases hx : x = w
      · subst hx
        have inList : x ∈ (s.session k).waits ↔ k = e.session := by
          rw [listed, found]
          simp [eq_comm]
        by_cases hk : k = e.session
        · simp [hk, (sizes e.session).1.not_mem_erase]
        · simp [hk, inList]
      · by_cases hk : k = e.session
        · simp [hx, hk, List.mem_erase_of_ne, listed]
        · simp [hx, hk, listed]
    · rw [lists]
      split
      · exact ⟨(sizes k).1.erase w, List.length_erase_le.trans (sizes k).2⟩
      · exact sizes k
    · rw [states] at isFree
      rw [lists, free k isFree]
      simp

/-- Lowering WINDOWS waits changes a condition or completes a wait. -/
theorem State.WaitsAgree.lowerWindows {s : State} (agree : s.WaitsAgree) (l : List WaitId) :
    (lowerWindows l s).WaitsAgree := by
  induction l generalizing s with
  | nil => exact agree
  | cons w rest ih =>
    have lowered (e : WaitEntry) (found : s.wait w = some e) (cond : WaitCond) :
        (s.setWait w (some { e with cond })).WaitsAgree := by
      refine agree.of_same (fun x => ?_) (fun _ => rfl) (fun _ => rfl)
      by_cases hx : x = w
      · simp [hx, found]
      · rw [State.wait_setWait_ne _ _ _ _ hx]
    cases found : s.wait w with
    | none => simpa only [Machine.lowerWindows, found] using ih agree
    | some e =>
      cases cond : e.cond with
      | windows n left =>
        simp only [Machine.lowerWindows, found, cond]
        split
        · exact ih ((lowered e found _).completeWait w .success)
        · exact ih (lowered e found _)
      | reach _ _ | atLeast _ | atMost _ | idle =>
        simpa only [Machine.lowerWindows, found, cond] using ih agree

/-- An update of a session entry that keeps its list and its state keeps the agreement. -/
theorem State.WaitsAgree.updSession {s : State} (agree : s.WaitsAgree) (i : SessionId) (f : Session → Session)
    (lists : ∀ e, (f e).waits = e.waits) (states : ∀ e, (f e).state = e.state) : (s.updSession i f).WaitsAgree := by
  refine agree.of_same (fun _ => rfl) (fun k => ?_) (fun k => ?_)
  · rw [State.session_updSession]
    split
    next hk => rw [lists, hk]
    next => rfl
  · rw [State.session_updSession]
    split
    next hk => rw [states, hk]
    next => rfl

/-- A session's record reaches report rings and the session's own counters. -/
theorem State.WaitsAgree.postRecord {s : State} (agree : s.WaitsAgree) (i : SessionId) (kind : UnsolicitedKind)
    (status : Status) (index value : Nat) (flags : RecordFlags) :
    (postRecord i kind status index value flags s).WaitsAgree := by
  have dropped : (s.setSession i (s.session i).droppedRecord).WaitsAgree :=
    agree.updSession i Session.droppedRecord (fun _ => rfl) (fun _ => rfl)
  unfold Machine.postRecord
  dsimp only
  split
  next => exact dropped
  next r _ =>
    split
    · split
      next ring _ =>
        have placed : (s.setReportRing r ring).WaitsAgree := agree.of_same (fun _ => rfl) (fun _ => rfl) (fun _ => rfl)
        exact placed.updSession i Session.tookRecord (fun _ => rfl) (fun _ => rfl)
      next => exact dropped
    · exact dropped

/-- A commit touches the lists of points only. -/
theorem Session.commitAt_keeps_waits (mode : CommitMode) (e : Session) :
    (e.commitAt mode).waits = e.waits ∧ (e.commitAt mode).state = e.state := by
  cases staged : e.staged with
  | none => simp [Session.commitAt, staged]
  | some st => by_cases now : st.mode = mode <;> simp [Session.commitAt, Session.commit, staged, now]

theorem Session.windowEnded_keeps_waits (e : Session) :
    e.windowEnded.waits = e.waits ∧ e.windowEnded.state = e.state := by
  unfold Session.windowEnded
  have commits := Session.commitAt_keeps_waits .atWindow
  split <;> exact ⟨(commits _).1, (commits _).2⟩

theorem Session.handsMarks_keeps_waits (e : Session) :
    e.handsMarks.waits = e.waits ∧ e.handsMarks.state = e.state := by
  unfold Session.handsMarks
  split <;> exact ⟨rfl, rfl⟩

/-- A window end touches waits only where it lowers WINDOWS waits. -/
theorem State.WaitsAgree.windowEnd {s : State} (agree : s.WaitsAgree) (i : SessionId) : (windowEnd i s).WaitsAgree := by
  have sampled : (postSample i s).WaitsAgree := by
    unfold postSample
    dsimp only
    split
    · exact agree.postRecord i _ _ _ _ _
    · exact agree
  have ended := sampled.updSession i Session.windowEnded (fun e => e.windowEnded_keeps_waits.1)
    (fun e => e.windowEnded_keeps_waits.2)
  have marked := ended.updSession i Session.handsMarks (fun e => e.handsMarks_keeps_waits.1)
    (fun e => e.handsMarks_keeps_waits.2)
  exact marked.lowerWindows _

theorem State.WaitsAgree.settle {s : State} (agree : s.WaitsAgree) : (settle s).WaitsAgree := by
  have key (l : List SessionId) : ∀ t : State, t.WaitsAgree → (settleList l t).WaitsAgree := by
    induction l with
    | nil => exact fun _ h => h
    | cons i rest ih =>
      intro t h
      simp only [settleList]
      split
      · exact ih _ (h.windowEnd i)
      · exact ih _ h
  exact key allSessions s agree

/-- The state in which a fetched record's job begins has its wait lists and its pool in agreement. -/
theorem State.WaitsAgree.recordArrives {s : State} (agree : s.WaitsAgree) (r : JobRingId) :
    (recordArrives r s).WaitsAgree := by
  have taken (u : State) (h : u.WaitsAgree) : { u.updJobRing r JobRing.advance with taking := none }.WaitsAgree :=
    h.of_same (fun _ => rfl) (fun _ => rfl) (fun _ => rfl)
  exact taken _ agree.settle

/-! ### A change of count that is not a step (R31, R103) -/

theorem changeEnds_eq_metByChange (v : Nat) (e : WaitEntry) :
    (if WaitCond.metByChange v e.cond then some Status.success else none) = changeEnds v e := by
  unfold changeEnds
  cases e.cond <;> simp [WaitCond.metByChange]

/-- The count takes the value; then the AT_LEAST and AT_MOST waits of the session that it meets complete, in list order,
with the new count. -/
theorem changeCount_completed (k : SessionId) (v : Nat) (t : State) (agree : t.WaitsAgree) :
    let u := changeCount k v t
    RecordFrame t u ∧ OtherSessionsKept k t u ∧
      u.session k = { t.session k with count := v, waits := keptWaits (changeEnds v) k t } ∧
      WaitsEnded (changeEnds v) k t u ∧ Handed (waitRecords (changeEnds v) k v t) t u := by
  have changed := agree.updSession k (fun e => { e with count := v }) (fun _ => rfl) (fun _ => rfl)
  have entry (j : SessionId) := State.session_updSession t k j (fun e => { e with count := v })
  have done := completeWaits_completed (fun c => if WaitCond.metByChange v c then some .success else none) k _ changed
  simp only [changeEnds_eq_metByChange] at done
  obtain ⟨frame, others, session, wait, records⟩ := done
  rw [diff_ended_eq_keptWaits _ _ _ (changed.2.1 k).1, entry, if_pos rfl] at session
  rw [entry, if_pos rfl] at wait records
  refine ⟨(recordFrame_updSession t k _).trans frame, fun j hj => ?_, ?_, wait, records⟩
  · rw [changeCount, meetWaits, others j hj, entry, if_neg hj]
  · rw [changeCount, meetWaits, session]
    simp only [keptWaits, entry, if_pos]
    rfl

/-! ### A job's own record after the records of its waits (R136) -/

/-- A job that has handed records over before its own answer: its own record comes last. -/
theorem reply_after_records (r : JobRingId) (w : JobRecord) (status : Status) (value : Nat)
    (recs : List (ReportRingId × ReportRecord)) (t u : State) (frame : RecordFrame t u) (handed : Handed recs t u) :
    Handed (recs ++ [((t.jobRing r).bound, ownRecord r w.tag status w.session (toWord value) {} t)]) t
        (reply r w status value u) ∧
      HaltedBy status r t (reply r w status value u) := by
  obtain ⟨last, halted⟩ := answerNow_answered r w status w.session (toWord value) {} u
  have own : ownRecord r w.tag status w.session (toWord value) {} u =
      ownRecord r w.tag status w.session (toWord value) {} t := by
    simp only [ownRecord, frame.jobRing, frame.stamp]
  refine ⟨fun q => ?_, fun j => ?_⟩
  · rw [handedRing_append, ← handed q, ← own, ← frame.jobRing]
    exact last q
  · have answered := halted j
    simp only [frame.jobRing] at answered
    exact answered

/-- Events of sessions and then an answer differ in the tables only. -/
theorem reply_onlyTablesAndWaits (r : JobRingId) (w : JobRecord) (status : Status) (value : Nat) (t u : State)
    (frame : RecordFrame t u) : OnlyTablesAndWaits t (reply r w status value u) := by
  have rings : OnlyRings u (reply r w status value u) := answer_onlyRings _ _ _ _ _
  unfold OnlyTablesAndWaits
  rw [rings, frame]

/-! ### PRESET (R32) -/

theorem Session.presetOk_iff (e : Session) (v : Nat) :
    e.presetOk v = true ↔
      v ≤ e.limitValue ∧
        ¬(e.mode = some .interval ∧ e.windowSource = some .own ∧ ∃ n, e.windowLength = some n ∧ n ≤ v) := by
  cases h : e.windowLength with
  | none => simp [Session.presetOk, h]
  | some n => simp [Session.presetOk, h, imp_iff_not_or, or_assoc]

theorem exec_preset (w : JobRecord) (s : State) (r : JobRingId) (k : SessionId) (reaches : JobReaches w r k s) :
    exec (.preset w) s = .next (presetBody r k w (recordArrives r s)) :=
  congrArg Host.Outcome.next (withTaken_workJob presetBody w s r k reaches)

/-- Settles O22: the refusal by the value, and the change of count with its waits, then the PRESET's own record. -/
theorem presetSetsTheCount : Obligations.PresetSetsTheCount := by
  unfold Obligations.PresetSetsTheCount
  intro w s r k reaches agree t e v tooLong
  have passes : e.presetOk v = true ↔ v ≤ e.limitValue ∧ ¬tooLong := e.presetOk_iff v
  rw [exec_preset w s r k reaches]
  refine ⟨fun refused => ?_, fun inLimit inWindow => ?_⟩
  · have fails : ¬e.presetOk v = true := by
      rw [passes]
      rintro ⟨inLimit, inWindow⟩
      exact refused.elim (Nat.not_lt.mpr inLimit) inWindow
    have body : presetBody r k w t = reply r w .badParam 0 t := if_neg fails
    rw [body]
    exact reply_refused r w .badParam 0 t rfl
  · have body : presetBody r k w t = reply r w .success v (changeCount k v t) := if_pos (passes.mpr ⟨inLimit, inWindow⟩)
    obtain ⟨frame, others, session, ended, records⟩ := changeCount_completed k v t (agree.recordArrives r)
    obtain ⟨handed, halted⟩ := reply_after_records r w .success v _ t _ frame records
    refine ⟨_, congrArg _ body, reply_onlyTablesAndWaits r w .success v t _ frame, fun j hj => ?_, ?_, fun x => ?_,
      handed, halted⟩
    · exact (answer_session _ _ _ _ _ j).trans (others j hj)
    · exact (answer_session _ _ _ _ _ k).trans session
    · exact (answer_wait _ _ _ _ _ x).trans (ended x)

end Sys2Proof.Machine

/-!
PROOFS. A job that changes its own session and then answers, said once; COMMIT_POINTS (R79); the operations that keep
every capture latch, with the LATCH action that writes it; and the READ of a capture (R36, R63).
-/

namespace Sys2Proof.Machine

/-! ### A job that changes its own session and answers (R136, R139) -/

/-- An answer halts its ring by its status alone, whatever its other fields. -/
theorem answer_haltedBy (r : JobRingId) (report : ReportRingId) (tag : BitVec 16) (a : Answer) (t : State) :
    HaltedBy a.status r t (answer r report tag a t) := by
  intro j
  rw [answer_jobRing]
  by_cases own : j = r
  · simp [own, JobRing.afterAnswer]
  · simp [own]

/-- An update of the job's session and then its answer: only that session changes besides the rings, and the one JOB
record goes to the bound report ring. -/
theorem answerNow_updSession (r : JobRingId) (k : SessionId) (w : JobRecord) (a : Answer) (f : Session → Session)
    (t : State) :
    let u := answerNow r w a (t.updSession k f)
    OnlyTables t u ∧ OtherSessionsKept k t u ∧ u.session k = f (t.session k) ∧
      Handed [((t.jobRing r).bound, jobRecord r (t.jobRing r).take w.tag a)] t u ∧ HaltedBy a.status r t u := by
  have entry (j : SessionId) :
      (answerNow r w a (t.updSession k f)).session j = if j = k then f (t.session k) else t.session j :=
    (answer_session _ _ _ _ _ j).trans (State.session_updSession t k j f)
  refine ⟨?_, fun j other => ?_, ?_, fun q => ?_, ?_⟩
  · have rings : OnlyRings (t.updSession k f) (answerNow r w a (t.updSession k f)) := answer_onlyRings _ _ _ _ _
    unfold OnlyTables
    rw [rings]
    rfl
  · rw [entry, if_neg other]
  · rw [entry, if_pos rfl]
  · exact answer_reportRing r _ q w.tag a (t.updSession k f)
  · exact answer_haltedBy r _ w.tag a (t.updSession k f)

/-- An update of the job's session and then a reply with a status and a value. -/
theorem reply_updSession (r : JobRingId) (k : SessionId) (w : JobRecord) (status : Status) (value : Nat)
    (f : Session → Session) (t : State) :
    let u := reply r w status value (t.updSession k f)
    OnlyTables t u ∧ OtherSessionsKept k t u ∧ u.session k = f (t.session k) ∧
      Answered r w.tag status w.session (toWord value) {} t u :=
  answerNow_updSession r k w { status, session := w.session, value := toWord value, stamp := t.stamp } f t

/-! ### COMMIT_POINTS (R75, R79) -/

theorem Session.commit_of_staged (e : Session) (st : StagedList) (staged : e.staged = some st) :
    e.commit = { e with active := st.points, staged := none } := by
  simp only [Session.commit, staged]

theorem exec_commitPoints (w : JobRecord) (s : State) (r : JobRingId) (k : SessionId)
    (reaches : JobReaches w r k s) :
    exec (.commitPoints w) s = .next (commitPointsBody r k w (recordArrives r s)) :=
  congrArg Host.Outcome.next (withTaken_workJob commitPointsBody w s r k reaches)

theorem commitPointsBody_of_none (r : JobRingId) (k : SessionId) (w : JobRecord) (t : State)
    (none_staged : (t.session k).staged = none) : commitPointsBody r k w t = reply r w .noStaged 0 t := by
  simp only [commitPointsBody, none_staged]

theorem commitPointsBody_of_staged (r : JobRingId) (k : SessionId) (w : JobRecord) (t : State) (st : StagedList)
    (staged : (t.session k).staged = some st) :
    commitPointsBody r k w t = reply r w .success st.points.length (t.updSession k Session.commit) := by
  simp only [commitPointsBody, staged]

/-- Settles O25: the refusal without a staged list, and the commit whatever the mode of the list. -/
theorem commitPointsCommitsTheStagedList : Obligations.CommitPointsCommitsTheStagedList := by
  unfold Obligations.CommitPointsCommitsTheStagedList
  intro w s r k reaches t e
  rw [exec_commitPoints w s r k reaches]
  refine ⟨fun none_staged => ?_, fun st staged => ?_⟩
  · rw [commitPointsBody_of_none r k w t none_staged]
    exact reply_refused r w .noStaged 0 t rfl
  · obtain ⟨tables, others, entry, answered⟩ :=
      reply_updSession r k w .success st.points.length Session.commit t
    rw [Session.commit_of_staged _ st staged] at entry
    refine ⟨_, congrArg Host.Outcome.next (commitPointsBody_of_staged r k w t st staged), tables, others, entry, ?_⟩
    rw [entry]
    exact answered

/-! ### What keeps every capture latch (R63) -/

/-- The capture latch of every session is the same. -/
def CapturesKept (s t : State) : Prop := ∀ i, (t.session i).capture = (s.session i).capture

theorem CapturesKept.refl (s : State) : CapturesKept s s := fun _ => rfl

theorem CapturesKept.trans {s t u : State} (h : CapturesKept s t) (g : CapturesKept t u) : CapturesKept s u :=
  fun i => (g i).trans (h i)

theorem capturesKept_updSession (s : State) (i : SessionId) (f : Session → Session)
    (keeps : ∀ e, (f e).capture = e.capture) : CapturesKept s (s.updSession i f) := by
  intro j
  rw [State.session_updSession]
  split
  next own => rw [keeps, own]
  next => rfl

theorem capturesKept_postRecord (i : SessionId) (kind : UnsolicitedKind) (status : Status) (index value : Nat)
    (flags : RecordFlags) (s : State) : CapturesKept s (postRecord i kind status index value flags s) := by
  have dropped : CapturesKept s (s.setSession i (s.session i).droppedRecord) :=
    capturesKept_updSession s i Session.droppedRecord fun _ => rfl
  have taken (q : ReportRingId) (ring : ReportRing) :
      CapturesKept s ((s.setReportRing q ring).setSession i (s.session i).tookRecord) :=
    capturesKept_updSession (s.setReportRing q ring) i Session.tookRecord fun _ => rfl
  unfold postRecord
  dsimp only
  split
  · exact dropped
  · split
    · split
      · exact taken _ _
      · exact dropped
    · exact dropped

theorem capturesKept_completeWait (w : WaitId) (status : Status) (s : State) :
    CapturesKept s (completeWait w status s) := by
  intro i
  cases found : s.wait w with
  | none => simp only [completeWait, completeWaitAt, found]
  | some e =>
    rw [completeWait, completeWaitAt_session w status s.stamp s e found]
    split <;> rfl

theorem capturesKept_completeList (choose : WaitCond → Option Status) (l : List WaitId) (s : State) :
    CapturesKept s (completeList choose l s) := by
  induction l generalizing s with
  | nil => exact .refl s
  | cons w rest ih =>
    simp only [completeList]
    split
    · exact ih s
    · split
      · exact ih s
      · exact (capturesKept_completeWait w _ s).trans (ih _)

theorem capturesKept_meetWaits (i : SessionId) (met : WaitCond → Bool) (s : State) :
    CapturesKept s (meetWaits i met s) := capturesKept_completeList _ _ s

theorem Session.handsMarks_keeps_capture (e : Session) : e.handsMarks.capture = e.capture := by
  unfold Session.handsMarks
  split <;> rfl

theorem Session.joinHost_keeps_capture (e : Session) : e.joinHost.capture = e.capture := by
  unfold Session.joinHost
  split <;> rfl

/-- Of the actions at step 3 of R30 only LATCH reaches a capture latch. -/
theorem capturesKept_hitActions (i : SessionId) (dir : Direction) (index : Nat) (a : Actions) (s : State) :
    CapturesKept (if a.latch then latchAction i s else s) (hitActions i dir index a s) := by
  have report (t : State) : CapturesKept t (if a.report then reportAction i dir index t else t) := by
    split
    · exact capturesKept_postRecord _ _ _ _ _ _ t
    · exact .refl t
  have output (t : State) :
      CapturesKept t (match a.output with | none => t | some (line, kind) => outputAction i line kind t) := by
    split <;> exact fun _ => rfl
  have pace (t : State) : CapturesKept t (if a.pace then handMarks i t else t) := by
    split
    · exact capturesKept_updSession t i _ Session.handsMarks_keeps_capture
    · exact .refl t
  exact ((report _).trans (output _)).trans (pace _)

theorem capturesKept_lateActions (i : SessionId) (a : Actions) (s : State) :
    CapturesKept s (lateActions i a s) := by
  have zero : CapturesKept s (if a.zero then changeCount i 0 s else s) := by
    split
    · exact (capturesKept_updSession s i (fun e => { e with count := 0 }) fun _ => rfl).trans
        (capturesKept_meetWaits i _ _)
    · exact .refl s
  have hold (t : State) : CapturesKept t (if a.hold then t.updSession i Session.joinHost else t) := by
    split
    · exact capturesKept_updSession t i _ Session.joinHost_keeps_capture
    · exact .refl t
  exact zero.trans (hold _)

theorem capturesKept_noteWindowEnd (i : SessionId) (count : Nat) (s : State) :
    CapturesKept s (noteWindowEnd i count s) := by
  unfold noteWindowEnd
  split
  · exact capturesKept_updSession s i _ fun _ => rfl
  · exact .refl s

/-! ### The LATCH action of a step (R28, R30, R63) -/

theorem stepCount_fst (dir : Direction) (count limit : Nat) :
    (stepCount dir count limit).1 = countAfter dir count limit := by
  cases dir <;> simp only [stepCount, countAfter] <;> split <;> rfl

theorem Session.commitAt_count (mode : CommitMode) (e : Session) : (e.commitAt mode).count = e.count := by
  cases staged : e.staged with
  | none => simp only [Session.commitAt, staged]
  | some st => by_cases now : st.mode = mode <;> simp [Session.commitAt, Session.commit, staged, now]

/-- The commit of a wrapping step leaves the stepped count. -/
theorem Session.steppedAndCommitted_count (e : Session) (dir : Direction) :
    (e.steppedAndCommitted dir).count = countAfter dir e.count e.limitValue := by
  have stepped : (e.stepped dir).count = countAfter dir e.count e.limitValue := stepCount_fst dir _ _
  unfold Session.steppedAndCommitted
  split
  · rw [Session.commitAt_count, stepped]
  · exact stepped

theorem latchAction_capture (i : SessionId) (s : State) :
    ((latchAction i s).session i).capture = { valid := true, value := (s.session i).count, stamp := s.stamp } := by
  rw [latchAction, State.session_updSession, if_pos rfl]

/-- After its hit actions a step reaches no capture latch. -/
theorem capturesKept_stepSession_of_hit (i : SessionId) (dir : Direction) (s : State) (index : Nat) (p : Point)
    (hit : findHit ((s.updSession i (·.steppedAndCommitted dir)).session i).count dir 0
      ((s.updSession i (·.steppedAndCommitted dir)).session i).active = some (index, p)) :
    CapturesKept (hitActions i dir index p.actions (s.updSession i (·.steppedAndCommitted dir)))
      (stepSession i dir s) := by
  simp only [stepSession, hit]
  exact ((capturesKept_meetWaits i _ _).trans (capturesKept_lateActions i _ _)).trans
    (capturesKept_noteWindowEnd i _ _)

theorem stepSession_capture_of_latch (i : SessionId) (dir : Direction) (s : State) (index : Nat) (p : Point)
    (hit : findHit ((s.updSession i (·.steppedAndCommitted dir)).session i).count dir 0
      ((s.updSession i (·.steppedAndCommitted dir)).session i).active = some (index, p))
    (latch : p.actions.latch = true) :
    ((stepSession i dir s).session i).capture =
      { valid := true, value := countAfter dir (s.session i).count (s.session i).limitValue, stamp := s.stamp } := by
  have stepped : ((s.updSession i (·.steppedAndCommitted dir)).session i).count =
      countAfter dir (s.session i).count (s.session i).limitValue := by
    rw [State.session_updSession, if_pos rfl, Session.steppedAndCommitted_count]
  have acted := capturesKept_hitActions i dir index p.actions (s.updSession i (·.steppedAndCommitted dir)) i
  rw [if_pos latch, latchAction_capture, stepped] at acted
  exact (capturesKept_stepSession_of_hit i dir s index p hit i).trans acted

/-! ### READ CAPTURE (R36) -/

theorem exec_read (w : JobRecord) (s : State) (r : JobRingId) (k : SessionId) (reaches : JobReaches w r k s) :
    exec (.read w) s = .next (readBody r k w (recordArrives r s)) :=
  congrArg Host.Outcome.next (withTaken_workJob readBody w s r k reaches)

/-- A READ with an item code of the table answers for that item and changes what the item changes (R34). -/
theorem readBody_of_item (r : JobRingId) (k : SessionId) (w : JobRecord) (t : State) (item : ReadItem)
    (asked : readItemOf (w.byte 8) = some item) :
    readBody r k w t =
      answerNow r w (readAnswer item w (t.session k) t.stamp) (t.updSession k (·.afterRead item (w.flag 0))) := by
  simp only [readBody, asked]

theorem readItemOf_capture (b : Byte) (code : b.toNat = 1) : readItemOf b = some .capture := by
  simp only [readItemOf, code]

/-- A valid capture is answered with its own value and its own stamp. -/
theorem readAnswer_capture_of_valid (w : JobRecord) (e : Session) (stamp : Word32) (valid : e.capture.valid = true) :
    readAnswer .capture w e stamp =
      { status := .success, session := w.session, value := toWord e.capture.value, stamp := e.capture.stamp } :=
  if_pos valid

/-- READ CAPTURE of a valid capture reports it and clears its flag. -/
theorem readBody_capture_of_valid (r : JobRingId) (k : SessionId) (w : JobRecord) (t : State)
    (code : (w.byte 8).toNat = 1) (valid : (t.session k).capture.valid = true) :
    let c := (t.session k).capture
    let u := readBody r k w t
    (u.session k).capture = { c with valid := false } ∧
      Handed [((t.jobRing r).bound,
        { ownRecord r w.tag .success w.session (toWord c.value) {} t with stamp := c.stamp })] t u := by
  dsimp only
  rw [readBody_of_item r k w t .capture (readItemOf_capture _ code), readAnswer_capture_of_valid w _ _ valid]
  obtain ⟨-, -, entry, handed, -⟩ := answerNow_updSession r k w
    { status := .success, session := w.session, value := toWord (t.session k).capture.value,
      stamp := (t.session k).capture.stamp } (·.afterRead .capture (w.flag 0)) t
  exact ⟨congrArg Session.capture entry, handed⟩

/-- Settles O46: the latch by the actions of the hit, kept over the rest of the step; and the READ that consumes it. -/
theorem latchCapturesCountAndStamp : Obligations.LatchCapturesCountAndStamp := by
  unfold Obligations.LatchCapturesCountAndStamp
  refine ⟨fun s i dir index p hit latch => stepSession_capture_of_latch i dir s index p hit latch, ?_⟩
  intro w s r k reaches t c code valid
  exact ⟨_, exec_read w s r k reaches, readBody_capture_of_valid r k w t code valid⟩

end Sys2Proof.Machine

/-!
PROOFS. RELEASE (R84).
-/

namespace Sys2Proof.Machine

theorem exec_release (w : JobRecord) (s : State) (r : JobRingId) (k : SessionId) (reaches : JobReaches w r k s) :
    exec (.release w) s = .next (releaseBody r k w (recordArrives r s)) :=
  congrArg Host.Outcome.next (withTaken_workJob releaseBody w s r k reaches)

/-- RELEASE answers with the count; in its session's entry only the HOST member of the hold set changes. -/
theorem releaseBody_answered (r : JobRingId) (k : SessionId) (w : JobRecord) (t : State) :
    let e := t.session k
    let u := releaseBody r k w t
    OnlyTables t u ∧ OtherSessionsKept k t u ∧ u.session k = { e with hold := { e.hold with host := false } } ∧
      Answered r w.tag .success w.session (toWord e.count) {} t u :=
  reply_updSession r k w .success (t.session k).count Session.leaveHost t

/-- Settles O27: a RELEASE that reaches its checks runs its body, an update of its own session and then its answer. -/
theorem releaseRemovesHostOnly : Obligations.ReleaseRemovesHostOnly := by
  unfold Obligations.ReleaseRemovesHostOnly
  intro w s r k reaches
  exact ⟨_, exec_release w s r k reaches, releaseBody_answered r k w (recordArrives r s)⟩

end Sys2Proof.Machine

/-!
PROOFS. The ring ids of the control jobs, a control job that replaces another ring's entry and answers, and MAKE_JOB_RING
(R140).
-/

namespace Sys2Proof.Machine

/-! ### Ring ids of 1 to 7 -/

theorem jobRingOf_eq_some_iff (b : Byte) (j : JobRingId) : jobRingOf b = some j ↔ b.toNat = j.val := by
  unfold jobRingOf
  split
  next inRange => simp [Fin.ext_iff]
  next outOfRange => exact iff_of_false (by simp) fun same => outOfRange (same ▸ j.isLt)

theorem workJobRingOf_eq_some_iff (b : Byte) (j : JobRingId) :
    workJobRingOf b = some j ↔ b.toNat = j.val ∧ j ≠ 0 := by
  unfold workJobRingOf
  rw [← jobRingOf_eq_some_iff]
  cases jobRingOf b with
  | none => simp
  | some r =>
    simp only [Option.ite_none_left_eq_some, Option.some.injEq]
    constructor
    · rintro ⟨work, rfl⟩
      exact ⟨rfl, work⟩
    · rintro ⟨rfl, work⟩
      exact ⟨work, rfl⟩

/-- Job rings and report rings are numbered alike. -/
theorem workReportRingOf_eq_some_iff (b : Byte) (q : ReportRingId) :
    workReportRingOf b = some q ↔ b.toNat = q.val ∧ q ≠ 0 :=
  workJobRingOf_eq_some_iff b q

theorem workJobRingOf_eq_none (b : Byte) (bad : b.toNat = 0 ∨ 7 < b.toNat) : workJobRingOf b = none := by
  rw [Option.eq_none_iff_forall_ne_some]
  intro j named
  obtain ⟨same, work⟩ := (workJobRingOf_eq_some_iff b j).mp named
  have nonzero : j.val ≠ 0 := Fin.val_ne_zero_iff.mpr work
  omega

/-! ### A control job that replaces an entry and answers (R136) -/

/-- A control job that replaces the entry of a work ring and then answers without a refusal: no ring halts, so that entry
is the only one that differs, and the record shows JR0 as it was. -/
theorem replyControl_setJobRing (w : JobRecord) (status : Status) (value : Nat) (j : JobRingId) (e : JobRing)
    (t : State) (work : j ≠ 0) (accepted : status.cls ≠ .refusal) :
    let u := replyControl 0 w status value (t.setJobRing j e)
    OnlyRings t u ∧ Handed [((t.jobRing 0).bound, ownRecord 0 w.tag status 255 (toWord value) {} t)] t u ∧
      ∀ i, u.jobRing i = if i = j then e else t.jobRing i := by
  intro u
  have control : (t.setJobRing j e).jobRing 0 = t.jobRing 0 := State.jobRing_setJobRing_ne t j 0 e work.symm
  obtain ⟨handed, halted⟩ := answerNow_answered 0 w status 255 (toWord value) {} (t.setJobRing j e)
  refine ⟨?_, ?_, fun i => ?_⟩
  · have rings : OnlyRings (t.setJobRing j e) u := answer_onlyRings _ _ _ _ _
    unfold OnlyRings
    rw [rings]
    rfl
  · simp only [ownRecord, control] at handed
    exact handed
  · have kept : u.jobRing i = (t.setJobRing j e).jobRing i :=
      (halted i).trans (if_neg fun ⟨_, refusal, _⟩ => accepted refusal)
    rw [kept, State.jobRing_setJobRing]

/-! ### MAKE_JOB_RING (R140) -/

/-- The third check of MAKE_JOB_RING: size, base, last byte, weight and the number of the report ring. -/
def MakeJobRingParameters (w : JobRecord) : Prop :=
  let size := (w.half 12).toNat
  let base := (w.quad 16).toNat
  let weight := (w.byte 10).toNat
  2 ≤ size ∧ size ≤ 1024 ∧ base % 32 = 0 ∧ base + 32 * size ≤ 2 ^ 64 ∧ 1 ≤ weight ∧ weight ≤ 8 ∧
    1 ≤ (w.byte 9).toNat ∧ (w.byte 9).toNat ≤ 7

theorem ringGeometryOk_iff (slot size base : Nat) :
    ringGeometryOk slot size base = true ↔
      2 ≤ size ∧ size ≤ 1024 ∧ base % slot = 0 ∧ base + slot * size ≤ 2 ^ 64 := by
  simp only [ringGeometryOk, Bool.and_eq_true, decide_eq_true_eq, and_assoc]
  rfl

theorem makeJobRingBound_eq_some_iff (w : JobRecord) (q : ReportRingId) :
    makeJobRingBound w = some q ↔ MakeJobRingParameters w ∧ (w.byte 9).toNat = q.val := by
  have number : workReportRingOf (w.byte 9) = some q ↔
      (1 ≤ (w.byte 9).toNat ∧ (w.byte 9).toNat ≤ 7) ∧ (w.byte 9).toNat = q.val := by
    rw [workReportRingOf_eq_some_iff, ← Fin.val_ne_zero_iff]
    omega
  simp only [makeJobRingBound, Option.ite_none_right_eq_some, number, Bool.and_eq_true, decide_eq_true_eq,
    ringGeometryOk_iff, MakeJobRingParameters, and_assoc]

theorem makeJobRingBound_eq_none (w : JobRecord) (bad : ¬MakeJobRingParameters w) : makeJobRingBound w = none := by
  rw [Option.eq_none_iff_forall_ne_some]
  intro q bound
  exact bad ((makeJobRingBound_eq_some_iff w q).mp bound).1

theorem exec_makeJobRing (w : JobRecord) (s : State) (reaches : ControlReaches s) :
    exec (.makeJobRing w) s = .next (makeJobRingBody w (recordArrives 0 s)) :=
  congrArg Host.Outcome.next (withTaken_controlJob makeJobRingBody w s reaches)

theorem makeJobRingBody_of_badId (w : JobRecord) (t : State) (id : workJobRingOf (w.byte 8) = none) :
    makeJobRingBody w t = replyControl 0 w .badParam 0 t := by
  simp only [makeJobRingBody, id]

section NamedRing

variable (w : JobRecord) (t : State) (j : JobRingId) (named : workJobRingOf (w.byte 8) = some j)

include named

theorem makeJobRingBody_of_present (present : (t.jobRing j).state ≠ .absent) :
    makeJobRingBody w t = replyControl 0 w .ringExists 0 t := by
  simp only [makeJobRingBody, named, if_pos present]

variable (absent : (t.jobRing j).state = .absent)

include absent

theorem makeJobRingBody_of_badParameters (bad : makeJobRingBound w = none) :
    makeJobRingBody w t = replyControl 0 w .badParam 0 t := by
  simp only [makeJobRingBody, named, if_neg (not_not_intro absent), bad]

theorem makeJobRingBody_of_notOpened (q : ReportRingId) (bound : makeJobRingBound w = some q)
    (notOpened : (t.reportRing q).state ≠ .opened) :
    makeJobRingBody w t = replyControl 0 w .noRing 0 t := by
  simp only [makeJobRingBody, named, if_neg (not_not_intro absent), bound, if_pos notOpened]

theorem makeJobRingBody_of_passes (q : ReportRingId) (bound : makeJobRingBound w = some q)
    (opened : (t.reportRing q).state = .opened) :
    makeJobRingBody w t = replyControl 0 w .success j.val (t.setJobRing j (madeJobRing w q)) := by
  simp only [makeJobRingBody, named, if_neg (not_not_intro absent), bound, if_neg (not_not_intro opened)]

end NamedRing

/-- Settles O33: the refusal of each of the four checks in their order, and the ring that passes them all. -/
theorem makeJobRingMakesARunningRing : Obligations.MakeJobRingMakesARunningRing := by
  unfold Obligations.MakeJobRingMakesARunningRing
  intro w s reaches t o id size base weight good
  have runs : o = .next (makeJobRingBody w t) := exec_makeJobRing w s reaches
  rw [runs]
  refine ⟨fun badId => ?_, fun j sameId work => ?_⟩
  · rw [makeJobRingBody_of_badId w t (workJobRingOf_eq_none _ badId)]
    exact replyControl_refused 0 w .badParam 0 t rfl
  have named : workJobRingOf (w.byte 8) = some j := (workJobRingOf_eq_some_iff _ j).mpr ⟨sameId, work⟩
  refine ⟨fun present => ?_, fun absent bad => ?_, fun q absent parameters sameRing => ?_⟩
  · rw [makeJobRingBody_of_present w t j named present]
    exact replyControl_refused 0 w .ringExists 0 t rfl
  · rw [makeJobRingBody_of_badParameters w t j named absent (makeJobRingBound_eq_none w bad)]
    exact replyControl_refused 0 w .badParam 0 t rfl
  have bound : makeJobRingBound w = some q := (makeJobRingBound_eq_some_iff w q).mpr ⟨parameters, sameRing⟩
  refine ⟨fun notOpened => ?_, fun opened => ?_⟩
  · rw [makeJobRingBody_of_notOpened w t j named absent q bound notOpened]
    exact replyControl_refused 0 w .noRing 0 t rfl
  · exact ⟨_, congrArg Host.Outcome.next (makeJobRingBody_of_passes w t j named absent q bound opened),
      replyControl_setJobRing w .success j.val j (madeJobRing w q) t work (by decide)⟩

end Sys2Proof.Machine

/-!
PROOFS. A control job that replaces a report ring's entry and answers, the notification settings, and TUNE_REPORT_RING
(R163).
-/

namespace Sys2Proof.Machine

/-! ### Report ring ids -/

/-- Job rings and report rings are numbered alike. -/
theorem reportRingOf_eq_some_iff (b : Byte) (q : ReportRingId) : reportRingOf b = some q ↔ b.toNat = q.val :=
  jobRingOf_eq_some_iff b q

theorem reportRingOf_eq_none (b : Byte) (bad : 7 < b.toNat) : reportRingOf b = none := by
  rw [Option.eq_none_iff_forall_ne_some]
  intro q named
  have same := (reportRingOf_eq_some_iff b q).mp named
  omega

/-! ### A control job that replaces a report ring's entry and answers (R136) -/

/-- The entry may be that of the ring JR0 is bound to, so the answer's own record is placed in the entry as replaced. -/
theorem replyControl_setReportRing (w : JobRecord) (status : Status) (value : Nat) (q : ReportRingId) (e : ReportRing)
    (t : State) :
    let u := replyControl 0 w status value (t.setReportRing q e)
    OnlyRings t u ∧ HaltedBy status 0 t u ∧
      ∀ i, u.reportRing i =
        handedRing [((t.jobRing 0).bound, ownRecord 0 w.tag status 255 (toWord value) {} t)] i
          (if i = q then e else t.reportRing i) := by
  intro u
  obtain ⟨handed, halted⟩ := answerNow_answered 0 w status 255 (toWord value) {} (t.setReportRing q e)
  refine ⟨?_, halted, fun i => ?_⟩
  · have rings : OnlyRings (t.setReportRing q e) u := answer_onlyRings _ _ _ _ _
    unfold OnlyRings
    rw [rings]
    rfl
  · rw [← State.reportRing_setReportRing t q i e]
    exact handed i

/-! ### Notification settings (R163) -/

/-- The model's check of the settings is the one stated in terms of numbers. -/
theorem notifyOf_eq_settingsAsked (w : JobRecord) :
    notifyOf (w.byte 9) (w.byte 10) (w.half 14) = settingsAsked w := by
  unfold notifyOf settingsAsked
  split
  next off => rw [off]; rfl
  next each => rw [each]; rfl
  next batch => simp only [batch, true_and]; rfl
  next notOff notEach notBatch =>
    rw [if_neg notOff, if_neg notEach, if_neg fun ⟨isTwo, _⟩ => notBatch isTwo]

/-! ### TUNE_REPORT_RING (R163) -/

theorem exec_tuneReportRing (w : JobRecord) (s : State) (reaches : ControlReaches s) :
    exec (.tuneReportRing w) s = .next (tuneReportRingBody w (recordArrives 0 s)) :=
  congrArg Host.Outcome.next (withTaken_controlJob tuneReportRingBody w s reaches)

theorem tuneReportRingBody_of_badId (w : JobRecord) (t : State) (id : reportRingOf (w.byte 8) = none) :
    tuneReportRingBody w t = replyControl 0 w .badParam 0 t := by
  simp only [tuneReportRingBody, id]

section TunedRing

variable (w : JobRecord) (t : State) (q : ReportRingId) (named : reportRingOf (w.byte 8) = some q)

include named

theorem tuneReportRingBody_of_absent (absent : (t.reportRing q).state = .absent) :
    tuneReportRingBody w t = replyControl 0 w .noRing 0 t := by
  simp only [tuneReportRingBody, named, if_pos absent]

variable (present : (t.reportRing q).state ≠ .absent)

include present

theorem tuneReportRingBody_of_badSettings (bad : settingsAsked w = none) :
    tuneReportRingBody w t = replyControl 0 w .badParam 0 t := by
  simp only [tuneReportRingBody, named, if_neg present, notifyOf_eq_settingsAsked, bad]

theorem tuneReportRingBody_of_passes (settings : NotifyMode) (asked : settingsAsked w = some settings) :
    tuneReportRingBody w t =
      replyControl 0 w .success (t.reportRing q).unnotified (t.setReportRing q ((t.reportRing q).tuned settings)) := by
  simp only [tuneReportRingBody, named, if_neg present, notifyOf_eq_settingsAsked, asked, State.updReportRing]

end TunedRing

/-- Settles O36: the refusal of each of the three checks in their order, and the ring that passes them, whose answer is
placed in the ring as tuned. -/
theorem tuneReportRingRestartsTheCount : Obligations.TuneReportRingRestartsTheCount := by
  unfold Obligations.TuneReportRingRestartsTheCount
  intro w s reaches t o id
  have runs : o = .next (tuneReportRingBody w t) := exec_tuneReportRing w s reaches
  rw [runs]
  refine ⟨fun badId => ?_, fun q sameId => ?_⟩
  · rw [tuneReportRingBody_of_badId w t (reportRingOf_eq_none _ badId)]
    exact replyControl_refused 0 w .badParam 0 t rfl
  have named : reportRingOf (w.byte 8) = some q := (reportRingOf_eq_some_iff _ q).mpr sameId
  refine ⟨fun absent => ?_, fun present bad => ?_, fun settings present asked => ?_⟩
  · rw [tuneReportRingBody_of_absent w t q named absent]
    exact replyControl_refused 0 w .noRing 0 t rfl
  · rw [tuneReportRingBody_of_badSettings w t q named present bad]
    exact replyControl_refused 0 w .badParam 0 t rfl
  · exact ⟨_, congrArg Host.Outcome.next (tuneReportRingBody_of_passes w t q named present settings asked),
      replyControl_setReportRing w .success (t.reportRing q).unnotified q ((t.reportRing q).tuned settings) t⟩

end Sys2Proof.Machine

section
/-!
PROOFS of the last sitting. They are elaborated one after another, as the tests are: the stacks of threads that wait for one
another count against the check's limit on memory.
-/

set_option Elab.async false

/-!
PROOFS. What the events of the part do to the tables, said once: the updates of a session entry that keep its ties to the
other tables and its ranges, the single effects of which every event is made, and each shared operation as a run of
them. An invariant that every single effect keeps is kept by every event.
-/

namespace Sys2Proof.Machine

/-! ### Tame updates of a session entry -/

/-- An update of a session entry that keeps its owner, its report ring, its waits and its ranges: the update of every event
and of every job but OPEN and the last step of CLOSE. -/
structure Mild (e e' : Session) : Prop where
  free : e'.state = .free → e.state = .free
  owner : e'.owner = e.owner
  reportRing : e'.reportRing = e.reportRing
  waits : e'.waits = e.waits
  inRange : e.InRange → e'.InRange

/-- A mild update that also keeps the entry's place in the pacing relation. -/
structure Tame (e e' : Session) : Prop extends Mild e e' where
  pacer : e'.pacer = e.pacer
  followers : e'.followers = e.followers
  marksOut : e'.marksOut = e.marksOut

theorem Mild.refl (e : Session) : Mild e e := ⟨id, rfl, rfl, rfl, id⟩

theorem Mild.trans {e f g : Session} (h : Mild e f) (h' : Mild f g) : Mild e g :=
  ⟨h.free ∘ h'.free, h'.owner.trans h.owner, h'.reportRing.trans h.reportRing, h'.waits.trans h.waits,
    h'.inRange ∘ h.inRange⟩

theorem Tame.refl (e : Session) : Tame e e := ⟨.refl e, rfl, rfl, rfl⟩

theorem Tame.trans {e f g : Session} (h : Tame e f) (h' : Tame f g) : Tame e g :=
  ⟨h.toMild.trans h'.toMild, h'.pacer.trans h.pacer, h'.followers.trans h.followers, h'.marksOut.trans h.marksOut⟩

/-- The fields of the pacing relation and of the measurement, changed within the ranges. -/
theorem Mild.of_eq {e e' : Session} (free : e'.state = .free → e.state = .free) (owner : e'.owner = e.owner)
    (reportRing : e'.reportRing = e.reportRing) (waits : e'.waits = e.waits)
    (count : e'.count ≤ e'.limitValue ∨ e'.count = e.count) (limit : e'.limit = e.limit)
    (wraps : e'.wraps = e.wraps ∨ e'.wraps = 0) (illegal : e'.illegal = e.illegal ∨ e'.illegal = 0)
    (lost : e'.lost = e.lost) (capture : e'.capture.value = e.capture.value) (active : e'.active = e.active)
    (staged : e'.staged = e.staged) : Mild e e' := by
  refine ⟨free, owner, reportRing, waits, ?_⟩
  have limits : e'.limitValue = e.limitValue := by simp only [Session.limitValue, limit]
  rintro ⟨hcount, hwraps, hillegal, hlost, hcapture, hactive, hstaged⟩
  refine ⟨?_, ?_, ?_, by omega, by omega, by rw [active, limits]; exact hactive, by rw [staged, limits]; exact hstaged⟩
  · rcases count with h | h <;> omega
  · rcases wraps with h | h <;> omega
  · rcases illegal with h | h <;> omega

theorem satInc_le (n : Nat) : satInc n ≤ Config.saturation := by
  unfold satInc
  split <;> omega

theorem stepCount_le (dir : Direction) (count limit : Nat) (h : count ≤ limit) : (stepCount dir count limit).1 ≤ limit := by
  cases dir <;> simp only [stepCount] <;> split <;> simp only <;> omega

theorem tame_stepped (e : Session) (dir : Direction) : Tame e (e.stepped dir) where
  free := id
  owner := rfl
  reportRing := rfl
  pacer := rfl
  followers := rfl
  marksOut := rfl
  waits := rfl
  inRange := by
    rintro ⟨count, wraps, rest⟩
    refine ⟨stepCount_le dir _ _ count, ?_, rest⟩
    simp only [Session.stepped]
    split
    · exact satInc_le _
    · exact wraps

theorem tame_commit (e : Session) : Tame e e.commit := by
  unfold Session.commit
  split
  · exact .refl e
  next st staged =>
    refine ⟨⟨id, rfl, rfl, rfl, ?_⟩, rfl, rfl, rfl⟩
    rintro ⟨count, wraps, illegal, lost, capture, -, lists⟩
    exact ⟨count, wraps, illegal, lost, capture, (lists st staged).1, by simp⟩

theorem tame_commitAt (mode : CommitMode) (e : Session) : Tame e (e.commitAt mode) := by
  unfold Session.commitAt
  split
  · exact .refl e
  · split
    · exact tame_commit e
    · exact .refl e

theorem tame_steppedAndCommitted (e : Session) (dir : Direction) : Tame e (e.steppedAndCommitted dir) := by
  unfold Session.steppedAndCommitted
  split
  · exact (tame_stepped e dir).trans (tame_commitAt _ _)
  · exact tame_stepped e dir

theorem tame_latched (e : Session) (stamp : Word32) :
    Tame e { e with capture := { valid := true, value := e.count, stamp } } where
  free := id
  owner := rfl
  reportRing := rfl
  pacer := rfl
  followers := rfl
  marksOut := rfl
  waits := rfl
  inRange := by
    rintro ⟨count, wraps, illegal, lost, -, rest⟩
    exact ⟨count, wraps, illegal, lost, count, rest⟩

theorem tame_counted (e : Session) (v : Nat) (h : v ≤ e.limitValue) : Tame e { e with count := v } :=
  ⟨.of_eq id rfl rfl rfl (.inl h) rfl (.inl rfl) (.inl rfl) rfl rfl rfl rfl, rfl, rfl, rfl⟩

theorem tame_illegal (e : Session) : Tame e { e with illegal := satInc e.illegal } where
  free := id
  owner := rfl
  reportRing := rfl
  pacer := rfl
  followers := rfl
  marksOut := rfl
  waits := rfl
  inRange := by
    rintro ⟨count, wraps, -, rest⟩
    exact ⟨count, wraps, satInc_le _, rest⟩

/-- Fields of the window, the hold set and the measurement that no tie and no range is about. -/
theorem tame_rest (e : Session) (state : SessionState) (live : state = .free → e.state = .free) (elapsed : Nat)
    (isPartial wrapped isOpen due : Bool) (pair : Option (Bool × Bool)) (hold : HoldSet) (enabled : Bool)
    (cause : Option FaultCause) :
    Tame e
      { e with state, elapsed, partialFlag := isPartial, wrappedFlag := wrapped, windowOpen := isOpen, windowEndDue := due,
               pairRef := pair, hold, outputsEnabled := enabled, faultCause := cause } :=
  ⟨.of_eq live rfl rfl rfl (.inr rfl) rfl (.inl rfl) (.inl rfl) rfl rfl rfl rfl, rfl, rfl, rfl⟩

theorem tame_joinHost (e : Session) : Tame e e.joinHost := by
  unfold Session.joinHost
  split
  · exact .refl e
  · exact tame_rest e _ id _ _ _ _ _ _ _ _ _

theorem tame_joinInhibit (e : Session) : Tame e e.joinInhibit := by
  unfold Session.joinInhibit
  split
  · exact .refl e
  · exact tame_rest e _ id _ _ _ _ _ _ _ _ _

theorem tame_joinPacer (e : Session) : Tame e e.joinPacer := by
  unfold Session.joinPacer
  split
  · exact .refl e
  · exact tame_rest e _ id _ _ _ _ _ _ _ _ _

theorem tame_beginWindow (e : Session) : Tame e e.beginWindow := tame_rest e _ id _ _ _ _ _ _ _ _ _

theorem tame_windowEnded (e : Session) : Tame e e.windowEnded := by
  unfold Session.windowEnded
  dsimp only
  refine Tame.trans ?_ (tame_commitAt .atWindow _)
  split
  · exact tame_rest e _ id _ _ _ _ _ _ _ _ _
  · exact (tame_rest e _ id _ _ _ _ false _ _ _ _).trans (tame_counted _ 0 (Nat.zero_le _))

/-! ### The single effects of events -/

/-- The session is not FREE, where the guard asks for it. -/
def LiveIf (guard : Prop) (s : State) (i : SessionId) : Prop := guard → (s.session i).state ≠ .free

/-- One effect of an event, or of a close before the entry is FREE. Under the guard it is at a session that is not FREE, as
every effect is in a state whose FREE entries are empty, and it leaves the pacing relation to the marks. -/
inductive Effect (guard : Prop) (s : State) : State → Prop where
  | post (i : SessionId) (kind : UnsolicitedKind) (status : Status) (index value : Nat) (flags : RecordFlags)
      (live : LiveIf guard s i) : Effect guard s (postRecord i kind status index value flags s)
  | entry (i : SessionId) (e : Session) (live : LiveIf guard s i) (mild : Mild (s.session i) e)
      (tame : guard → Tame (s.session i) e) : Effect guard s (s.setSession i e)
  | marks (i : SessionId) : Effect guard s (handMarks i s)
  | taken (f p : SessionId) (out : List (List SessionId)) (paced : (s.session f).pacer = some p)
      (after : marksAfter f (s.session p).marksOut = some out) :
      Effect guard s (s.updSession p (fun e => { e with marksOut := out }))
  | complete (w : WaitId) (status : Status) (stamp : Word32) : Effect guard s (completeWaitAt w status stamp s)
  | discard (w : WaitId) : Effect guard s (discardWait w s)
  | lower (w : WaitId) (e : WaitEntry) (cond : WaitCond) (found : s.wait w = some e) :
      Effect guard s (s.setWait w (some { e with cond }))
  | output (l : OutputId) (o : OutputLine) : Effect guard s (s.setOutput l o)

/-- A run of effects. -/
def Effects (guard : Prop) : State → State → Prop := Relation.ReflTransGen (Effect guard)

theorem Effects.refl {guard : Prop} (s : State) : Effects guard s s := Relation.ReflTransGen.refl

theorem Effects.trans {guard : Prop} {s t u : State} (h : Effects guard s t) (g : Effects guard t u) :
    Effects guard s u := Relation.ReflTransGen.trans h g

theorem Effect.run {guard : Prop} {s t : State} (h : Effect guard s t) : Effects guard s t :=
  Relation.ReflTransGen.single h

/-- What every single effect keeps, a run keeps. -/
theorem Effects.keep {guard : Prop} {P : State → Prop} (step : ∀ s t, Effect guard s t → P s → P t) {s t : State}
    (h : Effects guard s t) (start : P s) : P t := by
  induction h with
  | refl => exact start
  | tail _ last ih => exact step _ _ last ih

/-! ### What becomes of the states of sessions -/

theorem postRecord_session (i j : SessionId) (kind : UnsolicitedKind) (status : Status) (index value : Nat)
    (flags : RecordFlags) (s : State) :
    (postRecord i kind status index value flags s).session j = s.session j ∨
      j = i ∧ ((postRecord i kind status index value flags s).session j = (s.session i).tookRecord ∨
        (postRecord i kind status index value flags s).session j = (s.session i).droppedRecord) := by
  have written (t : State) (e : Session) (same : t.session j = s.session j) :
      (t.setSession i e).session j = s.session j ∨ j = i ∧ (t.setSession i e).session j = e := by
    rw [State.session_setSession]
    split
    next own => exact .inr ⟨own, rfl⟩
    next => exact .inl same
  unfold postRecord
  dsimp only
  split
  · exact (written s _ rfl).imp_right fun ⟨own, h⟩ => ⟨own, .inr h⟩
  · split
    · split
      · exact (written _ _ rfl).imp_right fun ⟨own, h⟩ => ⟨own, .inl h⟩
      · exact (written s _ rfl).imp_right fun ⟨own, h⟩ => ⟨own, .inr h⟩
    · exact (written s _ rfl).imp_right fun ⟨own, h⟩ => ⟨own, .inr h⟩

theorem postRecord_state (i j : SessionId) (kind : UnsolicitedKind) (status : Status) (index value : Nat)
    (flags : RecordFlags) (s : State) :
    ((postRecord i kind status index value flags s).session j).state = (s.session j).state := by
  rcases postRecord_session i j kind status index value flags s with h | ⟨rfl, h | h⟩ <;> rw [h] <;> rfl

theorem completeWaitAt_state (w : WaitId) (status : Status) (stamp : Word32) (s : State) (i : SessionId) :
    ((completeWaitAt w status stamp s).session i).state = (s.session i).state := by
  cases found : s.wait w with
  | none => simp [completeWaitAt, found]
  | some e =>
    rw [completeWaitAt_session w status stamp s e found]
    split <;> rfl

/-- A discarded wait leaves its session's list, and no session changes besides. -/
theorem discardWait_session (w : WaitId) (s : State) (e : WaitEntry) (found : s.wait w = some e) (i : SessionId) :
    (discardWait w s).session i =
      if i = e.session then { s.session i with waits := (s.session i).waits.erase w } else s.session i := by
  have returned (t : State) : (returnReservation e.reportRing t).session i = t.session i := by
    unfold returnReservation
    split <;> rfl
  unfold discardWait
  simp only [found, returned, freeWait_eq w s e found, State.session_updSession, State.session_setWait]
  split
  next own => rw [own]
  next => rfl

theorem discardWait_state (w : WaitId) (s : State) (i : SessionId) :
    ((discardWait w s).session i).state = (s.session i).state := by
  cases found : s.wait w with
  | none => simp [discardWait, found]
  | some e =>
    rw [discardWait_session w s e found]
    split <;> rfl

/-- No effect frees a session. -/
theorem Effect.live {guard : Prop} {s t : State} (h : Effect guard s t) (j : SessionId)
    (isFree : (t.session j).state = .free) : (s.session j).state = .free := by
  cases h with
  | post i kind status index value flags live => rwa [postRecord_state] at isFree
  | entry i e live mild tame =>
    rw [State.session_setSession] at isFree
    split at isFree
    next own => exact own ▸ mild.free isFree
    next => exact isFree
  | marks i =>
    rw [handMarks_session] at isFree
    split at isFree
    next own => exact own.1 ▸ isFree
    next => exact isFree
  | taken f p out paced after =>
    rw [State.session_updSession] at isFree
    split at isFree
    next own => exact own ▸ isFree
    next => exact isFree
  | complete w status stamp => rwa [completeWaitAt_state] at isFree
  | discard w => rwa [discardWait_state] at isFree
  | lower w e cond found => exact isFree
  | output l o => exact isFree

theorem Effects.live {guard : Prop} {s t : State} (h : Effects guard s t) (j : SessionId)
    (nonfree : (s.session j).state ≠ .free) : (t.session j).state ≠ .free :=
  h.keep (P := fun u => (u.session j).state ≠ .free) (fun _ _ effect kept isFree => kept (effect.live j isFree)) nonfree

theorem Effects.liveIf {guard : Prop} {s t : State} (h : Effects guard s t) {j : SessionId} (live : LiveIf guard s j) :
    LiveIf guard t j := fun g => h.live j (live g)

/-- Under the guard every effect keeps the FREE entries empty. -/
theorem Effect.freeEmpty {guard : Prop} (g : guard) {s t : State} (h : Effect guard s t) (empty : s.FreeEntriesEmpty) :
    t.FreeEntriesEmpty := by
  intro j isFree
  have was := empty j (h.live j isFree)
  have stayed := h.live j isFree
  cases h with
  | post i kind status index value flags live =>
    rcases postRecord_session i j kind status index value flags s with same | ⟨own, -⟩
    · rw [same, was]
    · exact absurd stayed (own ▸ live g)
  | entry i e live mild tame =>
    have other : j ≠ i := fun own => live g (own ▸ stayed)
    rw [State.session_setSession_ne _ _ _ _ other, was]
  | marks i =>
    rw [handMarks_session, if_neg, was]
    rintro ⟨rfl, follows⟩
    simp [was] at follows
  | taken f p out paced after =>
    rw [State.session_updSession, if_neg, was]
    rintro rfl
    simp [was, marksAfter] at after
  | complete w status stamp =>
    cases found : s.wait w with
    | none => simpa [completeWaitAt, found] using was
    | some e =>
      rw [completeWaitAt_session w status stamp s e found, was]
      split <;> rfl
  | discard w =>
    cases found : s.wait w with
    | none => simpa [discardWait, found] using was
    | some e =>
      rw [discardWait_session w s e found, was]
      split <;> rfl
  | lower w e cond found => exact was
  | output l o => exact was

theorem Effects.freeEmpty {guard : Prop} {s t : State} (h : Effects guard s t) (empty : guard → s.FreeEntriesEmpty) :
    guard → t.FreeEntriesEmpty := fun g => h.keep (fun _ _ effect => effect.freeEmpty g) (empty g)

/-- In a state whose FREE entries are empty, an entry that shows a sign of use is not FREE. -/
theorem State.FreeEntriesEmpty.live {s : State} (empty : s.FreeEntriesEmpty) {i : SessionId} (used : s.session i ≠ {}) :
    (s.session i).state ≠ .free := fun isFree => used (empty i isFree)

theorem liveIf_of_used {guard : Prop} {s : State} (empty : guard → s.FreeEntriesEmpty) {i : SessionId}
    (used : s.session i ≠ {}) : LiveIf guard s i := fun g => (empty g).live used

theorem liveIf_of_active {guard : Prop} {s : State} {i : SessionId} (active : (s.session i).state = .active) :
    LiveIf guard s i := fun _ => by simp [active]

/-! ### The shared operations as runs of effects -/

section
variable {guard : Prop}

theorem effects_updSession (s : State) (i : SessionId) (f : Session → Session) (live : LiveIf guard s i)
    (tame : Tame (s.session i) (f (s.session i))) : Effects guard s (s.updSession i f) :=
  (Effect.entry i _ live tame.toMild fun _ => tame).run

theorem effects_completeList (choose : WaitCond → Option Status) (l : List WaitId) (s : State) :
    Effects guard s (completeList choose l s) := by
  induction l generalizing s with
  | nil => exact .refl s
  | cons w rest ih =>
    simp only [completeList]
    repeat' split
    · exact ih s
    · exact ih s
    · exact (Effect.complete w _ s.stamp).run.trans (ih _)

theorem effects_completeWaits (i : SessionId) (choose : WaitCond → Option Status) (s : State) :
    Effects guard s (completeWaits i choose s) := effects_completeList choose _ s

theorem effects_meetWaits (i : SessionId) (met : WaitCond → Bool) (s : State) : Effects guard s (meetWaits i met s) :=
  effects_completeWaits i _ s

theorem effects_discardWaits (l : List WaitId) (s : State) : Effects guard s (discardWaits l s) := by
  induction l generalizing s with
  | nil => exact .refl s
  | cons w rest ih => exact (Effect.discard w).run.trans (ih _)

theorem effects_cancelList (l : List WaitId) (s : State) : Effects guard s (cancelList l s) := by
  induction l generalizing s with
  | nil => exact .refl s
  | cons w rest ih => exact (Effect.complete w _ s.stamp).run.trans (ih _)

theorem effects_lowerWindows (l : List WaitId) (s : State) : Effects guard s (lowerWindows l s) := by
  induction l generalizing s with
  | nil => exact .refl s
  | cons w rest ih =>
    simp only [lowerWindows]
    split
    next e found =>
      split
      next n left _ =>
        have lowered := (Effect.lower (guard := guard) w e (.windows n (left - 1)) found).run
        split
        · exact (lowered.trans (Effect.complete w .success _).run).trans (ih _)
        · exact lowered.trans (ih _)
      · exact ih s
    · exact ih s

theorem effects_changeCount (i : SessionId) (value : Nat) (s : State) (live : LiveIf guard s i)
    (inLimit : value ≤ (s.session i).limitValue) : Effects guard s (changeCount i value s) :=
  (effects_updSession s i _ live (tame_counted _ value inLimit)).trans (effects_meetWaits i _ _)

theorem effects_hitActions (i : SessionId) (dir : Direction) (index : Nat) (a : Actions) (s : State)
    (live : LiveIf guard s i) : Effects guard s (hitActions i dir index a s) := by
  have latched : Effects guard s (if a.latch then latchAction i s else s) := by
    split
    · exact effects_updSession s i _ live (tame_latched _ _)
    · exact .refl s
  have reported (t : State) (liveThen : LiveIf guard t i) :
      Effects guard t (if a.report then reportAction i dir index t else t) := by
    split
    · exact (Effect.post i _ _ _ _ _ liveThen).run
    · exact .refl t
  have acted (t : State) :
      Effects guard t (match a.output with | none => t | some (line, kind) => outputAction i line kind t) := by
    split
    · exact .refl t
    · exact (Effect.output _ _).run
  have paced (t : State) : Effects guard t (if a.pace then handMarks i t else t) := by
    split
    · exact (Effect.marks i).run
    · exact .refl t
  exact ((latched.trans (reported _ (latched.liveIf live))).trans (acted _)).trans (paced _)

theorem effects_lateActions (i : SessionId) (a : Actions) (s : State) (live : LiveIf guard s i) :
    Effects guard s (lateActions i a s) := by
  have zeroed : Effects guard s (if a.zero then changeCount i 0 s else s) := by
    split
    · exact effects_changeCount i 0 s live (Nat.zero_le _)
    · exact .refl s
  have held (t : State) (liveThen : LiveIf guard t i) :
      Effects guard t (if a.hold then t.updSession i Session.joinHost else t) := by
    split
    · exact effects_updSession t i _ liveThen (tame_joinHost _)
    · exact .refl t
  exact zeroed.trans (held _ (zeroed.liveIf live))

theorem effects_noteWindowEnd (i : SessionId) (count : Nat) (s : State) (live : LiveIf guard s i) :
    Effects guard s (noteWindowEnd i count s) := by
  unfold noteWindowEnd
  split
  · exact effects_updSession s i _ live (tame_rest _ _ id _ _ _ _ _ _ _ _ _)
  · exact .refl s

theorem effects_stepSession (i : SessionId) (dir : Direction) (s : State) (live : LiveIf guard s i) :
    Effects guard s (stepSession i dir s) := by
  have stepped := effects_updSession s i (·.steppedAndCommitted dir) live (tame_steppedAndCommitted _ dir)
  have noted (count : Nat) (t : State) (h : Effects guard s t) : Effects guard s (noteWindowEnd i count t) :=
    h.trans (effects_noteWindowEnd i count t (h.liveIf live))
  have late (a : Actions) (t : State) (h : Effects guard s t) : Effects guard s (lateActions i a t) :=
    h.trans (effects_lateActions i a t (h.liveIf live))
  unfold stepSession
  dsimp only
  split
  · exact noted _ _ (stepped.trans (effects_meetWaits i _ _))
  · exact noted _ _ (late _ _ ((stepped.trans (effects_hitActions i dir _ _ _ (stepped.liveIf live))).trans
      (effects_meetWaits i _ _)))

theorem effects_stepIfCounting (i : SessionId) (dir : Direction) (s : State) :
    Effects guard s (stepIfCounting i dir s) := by
  unfold stepIfCounting
  split
  next counts =>
    simp only [Session.counts, Bool.and_eq_true, decide_eq_true_eq] at counts
    exact effects_stepSession i dir s (liveIf_of_active counts.1)
  next => exact .refl s

theorem effects_faultSession (i : SessionId) (s : State) (live : LiveIf guard s i) :
    Effects guard s (faultSession i s) := by
  have faulted := effects_updSession s i (fun e => { e with state := .faulted, faultCause := some .illegalStep }) live
    (tame_rest _ _ (by simp) _ _ _ _ _ _ _ _ _)
  exact (faulted.trans (Effect.post i _ _ _ _ _ (faulted.liveIf live)).run).trans (effects_completeWaits i _ _)

theorem effects_illegalStep (i : SessionId) (s : State) (live : LiveIf guard s i) :
    Effects guard s (illegalStep i s) := by
  have counted := effects_updSession s i (fun e => { e with illegal := satInc e.illegal }) live (tame_illegal _)
  unfold illegalStep
  dsimp only
  split
  · exact counted.trans (effects_faultSession i _ (counted.liveIf live))
  · exact counted

theorem effects_pairSample (i : SessionId) (s : State) (live : LiveIf guard s i) :
    Effects guard s (pairSample i s) := by
  have referred := effects_updSession s i (fun x => { x with pairRef := pairLevels (s.session i) s }) live
    (tame_rest _ _ id _ _ _ _ _ _ _ _ _)
  have liveThen := referred.liveIf live
  unfold pairSample
  dsimp only
  split
  · split
    · split
      · exact referred.trans (effects_illegalStep i _ liveThen)
      · split
        · exact referred
        · split
          · exact referred.trans (effects_stepSession i _ _ liveThen)
          · exact referred
    · exact referred
  · exact referred

theorem effects_windowEnd (i : SessionId) (s : State) (live : LiveIf guard s i) : Effects guard s (windowEnd i s) := by
  have sampled : Effects guard s (postSample i s) := by
    unfold postSample
    dsimp only
    split
    · exact (Effect.post i _ _ _ _ _ live).run
    · exact .refl s
  have ended := sampled.trans (effects_updSession _ i _ (sampled.liveIf live) (tame_windowEnded _))
  exact (ended.trans (Effect.marks i).run).trans (effects_lowerWindows _ _)

theorem effects_settle (s : State) (empty : guard → s.FreeEntriesEmpty) : Effects guard s (settle s) := by
  have key (l : List SessionId) : ∀ t : State, (guard → t.FreeEntriesEmpty) → Effects guard t (settleList l t) := by
    induction l with
    | nil => exact fun t _ => .refl t
    | cons i rest ih =>
      intro t emptyThen
      simp only [settleList]
      split
      next due =>
        have live : LiveIf guard t i := liveIf_of_used emptyThen fun h => by simp [h] at due
        have ended := effects_windowEnd i t live
        exact ended.trans (ih _ (ended.freeEmpty emptyThen))
      next => exact ih t emptyThen
  exact key allSessions s empty

theorem effects_actOnMark (f : SessionId) (s : State) : Effects guard s (actOnMark f s) := by
  unfold actOnMark
  dsimp only
  split
  next active =>
    have live : LiveIf guard s f := liveIf_of_active active
    split
    · exact effects_windowEnd f s live
    · exact effects_updSession s f _ live (tame_rest _ _ id _ _ _ _ _ _ _ _ _)
  next => exact .refl s

theorem effects_takeMark (f : SessionId) (s : State) : Effects guard s (takeMark f s) := by
  unfold takeMark
  split
  · exact .refl s
  next p paced =>
    split
    · exact .refl s
    next out after => exact (Effect.taken f p out paced after).run.trans (effects_actOnMark f _)

theorem effects_takeMarks (l : List SessionId) (s : State) : Effects guard s (takeMarks l s) := by
  induction l generalizing s with
  | nil => exact .refl s
  | cons f rest ih => exact (effects_takeMark f s).trans (ih _)

theorem effects_flushMarks (p : SessionId) (s : State) : Effects guard s (flushMarks p s) := effects_takeMarks _ s

theorem effects_takeWindowEnd (i : SessionId) (s : State) (empty : guard → s.FreeEntriesEmpty) :
    Effects guard s (takeWindowEnd i s) := by
  unfold takeWindowEnd
  split
  next due =>
    refine effects_windowEnd i s (liveIf_of_used empty fun h => ?_)
    simp [h, Session.timerExpired] at due
  next => exact .refl s

theorem effects_tickSession (rate : TickRate) (i : SessionId) (s : State) : Effects guard s (tickSession rate i s) := by
  unfold tickSession
  dsimp only
  split
  next selects =>
    have live : LiveIf guard s i := liveIf_of_active selects.1
    split
    · have ended : Effects guard s (if (s.session i).timerExpired then windowEnd i s else s) := by
        split
        · exact effects_windowEnd i s live
        · exact .refl s
      have advanced (t : State) (liveThen : LiveIf guard t i) : Effects guard t
          (if (t.session i).windowOpen then t.updSession i (fun e => { e with elapsed := e.elapsed + 1 }) else t) := by
        split
        · exact effects_updSession t i _ liveThen (tame_rest _ _ id _ _ _ _ _ _ _ _ _)
        · exact .refl t
      exact ended.trans (advanced _ (ended.liveIf live))
    · split
      · exact effects_stepIfCounting i .up s
      · exact .refl s
    · exact effects_stepIfCounting i .up s
    · exact .refl s
  next => exact .refl s

theorem effects_tickList (rate : TickRate) (l : List TickTurn) (s : State) (empty : guard → s.FreeEntriesEmpty) :
    Effects guard s (tickList rate l s) := by
  induction l generalizing s with
  | nil => exact .refl s
  | cons t rest ih =>
    have turn : Effects guard s (takeTurn rate t s) := by
      unfold takeTurn
      split
      · exact effects_tickSession rate _ s
      · exact effects_takeWindowEnd _ s empty
      · exact effects_takeMark _ s
    exact turn.trans (ih _ (turn.freeEmpty empty))

theorem effects_gateEdge (i : SessionId) (rising : Bool) (s : State) : Effects guard s (gateEdge i rising s) := by
  unfold gateEdge
  dsimp only
  split
  next active =>
    have live : LiveIf guard s i := liveIf_of_active active
    split
    · split
      · exact .refl s
      · exact effects_updSession s i _ live ((tame_beginWindow _).trans (tame_counted _ 0 (Nat.zero_le _)))
    · split
      · exact effects_windowEnd i s live
      · exact .refl s
  next => exact .refl s

theorem effects_deliver (d : Delivery) (s : State) (live : d.2 ≠ .mark → LiveIf guard s d.1) :
    Effects guard s (deliver d s) := by
  obtain ⟨i, role⟩ := d
  cases role with
  | phase =>
    simp only [deliver, phaseEdge]
    split
    · exact effects_pairSample i s (live (by simp))
    · split
      · exact effects_stepIfCounting i .up s
      · exact .refl s
    · split
      · exact effects_stepIfCounting i .up s
      · exact .refl s
    · split
      · exact effects_stepIfCounting i .up s
      · exact .refl s
    · exact effects_gateEdge i _ s
    · exact .refl s
  | lineB =>
    simp only [deliver, lineBEdge]
    split
    · split
      · exact effects_stepIfCounting i .down s
      · exact .refl s
    · exact .refl s
  | inhibit =>
    simp only [deliver, inhibitEdge]
    split
    · split
      · exact effects_updSession s i _ (live (by simp)) (tame_joinInhibit _)
      · exact effects_updSession s i _ (live (by simp)) (tame_rest _ _ id _ _ _ _ _ _ _ _ _)
    · exact .refl s
  | mark => exact effects_takeMark i s

theorem effects_deliverList (l : List Delivery) (s : State) (live : ∀ d ∈ l, d.2 ≠ .mark → (s.session d.1).state ≠ .free) :
    Effects guard s (deliverList l s) := by
  induction l generalizing s with
  | nil => exact .refl s
  | cons d rest ih =>
    have first : Effects guard s (deliver d s) := effects_deliver d s fun edge _ => live d (by simp) edge
    exact first.trans (ih _ fun x hx edge => first.live x.1 (live x (by simp [hx]) edge))

/-- A planned member of the instant is one of those the instant causes. -/
theorem mem_planned {α : Type} [DecidableEq α] (isMember : α → Bool) (order all : List α) (x : α)
    (planned_x : x ∈ planned isMember order all) : isMember x = false ∨ x ∈ all := by
  unfold planned at planned_x
  split at planned_x
  · simp only [List.mem_append, List.mem_filter, Bool.or_eq_true, Bool.not_eq_true', decide_eq_true_eq] at planned_x
    tauto
  · exact .inr planned_x

theorem mem_heardBy (changed : BitVec 16) (s : State) (d : Delivery) :
    d ∈ heardBy changed s ↔ d.2 ≠ .mark ∧ (s.session d.1).hears changed d.2 = true := by
  obtain ⟨i, role⟩ := d
  have every : i ∈ allSessions := List.mem_finRange i
  cases role <;> simp [heardBy, every, Session.hears]

theorem effects_handEdges (changed : BitVec 16) (order : List Delivery) (s : State) :
    Effects guard s (handEdges changed order s) := by
  refine effects_deliverList _ s fun d hd edge => ?_
  rcases mem_planned _ _ _ d hd with mark | heard
  · simp [Delivery.isEdge, edge] at mark
  · have hears := ((mem_heardBy changed s d).mp heard).2
    simp only [Session.hears, Bool.and_eq_true, decide_eq_true_eq] at hears
    exact hears.1

end

end Sys2Proof.Machine

/-!
PROOFS. What a job can do and what a command can do, said once: the forms of the state in which a job's own record is
handed over, the ways a take ends, and the forms of the next state of every command. Every invariant of a step is a case
analysis of these forms.
-/

namespace Sys2Proof.Machine

/-! ### The forms of a job's effect -/

/-- The state in which the own record of a job of ring `r` is handed over, where the job began in `t`. -/
inductive JobDone (guard : Prop) (r : JobRingId) (t : State) : State → Prop where
  | effects {u : State} (run : Effects guard t u) : JobDone guard r t u
  | opened (k : SessionId) (w : JobRecord) (setup : Session) (isFree : (t.session k).state = .free)
      (asked : openSetup w = some setup) (passes : openRefusal r w setup t = none) :
      JobDone guard r t (configure r k w setup t)
  | closed (k : SessionId) (live : (t.session k).state ≠ .free) : JobDone guard r t (closeSession closeWaits k t)
  | jobRingMade (j : JobRingId) (w : JobRecord) (bound : ReportRingId) (work : j ≠ 0)
      (absent : (t.jobRing j).state = .absent) (passes : makeJobRingBound w = some bound)
      (isOpen : (t.reportRing bound).state = .opened) : JobDone guard r t (t.setJobRing j (madeJobRing w bound))
  | jobRingDropped (j : JobRingId) (work : j ≠ 0) (control : r = 0) (present : (t.jobRing j).state ≠ .absent)
      (unowned : t.ownedCount j = 0) (noFetch : (t.jobRing j).fetchInFlight = false) :
      JobDone guard r t (forgetJobRing j t)
  | jobRingRestarted (j : JobRingId) (halted : (t.jobRing j).state = .halted) :
      JobDone guard r t (t.updJobRing j (fun x => { x with state := .running }))
  | reportRingMade (q : ReportRingId) (base size : Nat) (mode : NotifyMode) (absent : (t.reportRing q).state = .absent)
      (room : 2 ≤ size) : JobDone guard r t (t.setReportRing q (madeReportRing base size mode))
  | tuned (q : ReportRingId) (mode : NotifyMode) (present : (t.reportRing q).state ≠ .absent) :
      JobDone guard r t (t.updReportRing q (·.tuned mode))
  | lineSet (l : LineId) (inverted : Bool) (width : Nat) (wide : 2 ≤ width) (narrow : width ≤ 255) :
      JobDone guard r t (setUpLine l inverted width t)

/-- The state after the take of a job of ring `r`, where the job began in `t`. -/
inductive JobResult (guard : Prop) (r : JobRingId) (t : State) : State → Prop where
  | answered {u : State} (w : JobRecord) (a : Answer) (done : JobDone guard r t u) :
      JobResult guard r t (answerNow r w a u)
  | fetching (k : SessionId) (w : JobRecord) (n : Nat) (mode : CommitMode) (live : (t.session k).state ≠ .free)
      (few : n ≤ Config.maxPoints) : JobResult guard r t (beginFetch r k w n mode t)
  | waiting (k : SessionId) (w : JobRecord) (cond : WaitCond) (id : WaitId) (live : (t.session k).state ≠ .free)
      (owner : (t.session k).owner = some r) (room : (t.session k).waits.length < Config.maxSessionWaits)
      (isFree : t.wait id = none) : JobResult guard r t (takeWait r k w cond id t)
  | cascaded (q : ReportRingId) (tag : BitVec 16) (control : r = 0) (work : q ≠ 0)
      (broken : (t.reportRing q).state = .broken) : JobResult guard r t (cascade q tag t)
  | unused (q : ReportRingId) (tag : BitVec 16) (control : r = 0) (work : q ≠ 0)
      (isOpen : (t.reportRing q).state = .opened) (noUser : t.usersOf q = 0) :
      JobResult guard r t (dropUnused q tag t)
  | dropping (q : ReportRingId) (tag : BitVec 16) (control : r = 0) (work : q ≠ 0)
      (isOpen : (t.reportRing q).state = .opened) (noUser : t.usersOf q = 0) :
      JobResult guard r t { t with taking := some { ring := 0, stage := .dropping q tag } }

section
variable {guard : Prop} {r : JobRingId} {t : State}

theorem JobDone.same : JobDone guard r t t := .effects (.refl t)

theorem JobResult.refused (w : JobRecord) (status : Status) (value : Nat) :
    JobResult guard r t (reply r w status value t) := .answered w _ .same

theorem JobResult.replied {u : State} (w : JobRecord) (status : Status) (value : Nat) (run : Effects guard t u) :
    JobResult guard r t (reply r w status value u) := .answered w _ (.effects run)

theorem JobResult.refusedControl (control : r = 0) (w : JobRecord) (status : Status) (value : Nat) :
    JobResult guard r t (replyControl 0 w status value t) := control ▸ .answered w _ .same

/-- An update of the job's own live session and then its answer. -/
theorem JobResult.updated (k : SessionId) (f : Session → Session) (w : JobRecord) (a : Answer)
    (live : (t.session k).state ≠ .free) (tame : Tame (t.session k) (f (t.session k))) :
    JobResult guard r t (answerNow r w a (t.updSession k f)) :=
  .answered w a (.effects (effects_updSession t k f (fun _ => live) tame))

theorem tame_afterRead (e : Session) (item : ReadItem) (clear : Bool) : Tame e (e.afterRead item clear) := by
  cases item <;> simp only [Session.afterRead]
  case capture =>
    exact ⟨.of_eq id rfl rfl rfl (.inr rfl) rfl (.inl rfl) (.inl rfl) rfl rfl rfl rfl, rfl, rfl, rfl⟩
  case wraps =>
    split
    · exact ⟨.of_eq id rfl rfl rfl (.inr rfl) rfl (.inr rfl) (.inl rfl) rfl rfl rfl rfl, rfl, rfl, rfl⟩
    · exact .refl e
  case illegal =>
    split
    · exact ⟨.of_eq id rfl rfl rfl (.inr rfl) rfl (.inl rfl) (.inr rfl) rfl rfl rfl rfl, rfl, rfl, rfl⟩
    · exact .refl e
  case count | state | lists => exact .refl e

/-- Staging a list that is in range. -/
theorem tame_stage (e : Session) (points : List Point) (mode : CommitMode) (good : ListInRange e.limitValue points) :
    Tame e (e.stage points mode) := by
  unfold Session.stage
  dsimp only
  split
  · refine ⟨⟨id, rfl, rfl, rfl, ?_⟩, rfl, rfl, rfl⟩
    rintro ⟨count, wraps, illegal, lost, capture, -, -⟩
    exact ⟨count, wraps, illegal, lost, capture, good, by simp [Session.commit]⟩
  next later =>
    refine ⟨⟨id, rfl, rfl, rfl, ?_⟩, rfl, rfl, rfl⟩
    rintro ⟨count, wraps, illegal, lost, capture, active, -⟩
    refine ⟨count, wraps, illegal, lost, capture, active, fun st staged => ?_⟩
    simp only [Option.some.injEq] at staged
    exact staged ▸ ⟨good, later⟩

theorem listInRange_nil (limit : Nat) : ListInRange limit [] := ⟨Nat.zero_le _, .nil, by simp⟩

theorem tame_started (e : Session) (pair : Option (Bool × Bool)) : Tame e (e.started pair) := by
  unfold Session.started
  dsimp only
  have active : Tame e { e with state := .active } := tame_rest e _ (by simp) _ _ _ _ _ _ _ _ _
  have paced : Tame e (if e.pacer.isSome = true then Session.joinPacer { e with state := .active }
      else { e with state := .active }) := by
    split
    · exact active.trans (tame_joinPacer _)
    · exact active
  split
  · exact paced.trans (tame_rest _ _ id _ _ _ _ _ _ _ _ _)
  · exact paced.trans ((tame_beginWindow _).trans (tame_counted _ 0 (Nat.zero_le _)))
  · exact paced.trans (tame_counted _ 0 (Nat.zero_le _))
  · exact paced.trans (tame_beginWindow _)
  · exact paced

theorem tame_stopped (e : Session) : Tame e e.stopped := tame_rest e _ (by simp) _ _ _ _ _ _ _ _ _

/-! ### The jobs -/

/-- A work job is refused by the common validation, or runs its body on a live session that its ring owns. -/
theorem workJob_result (body : JobRingId → SessionId → JobRecord → State → State) (w : JobRecord)
    (bodies : ∀ k, (t.session k).state ≠ .free → (t.session k).owner = some r → JobResult guard r t (body r k w t)) :
    JobResult guard r t (workJob body w r t) := by
  unfold workJob
  split
  · exact .refused w _ 0
  next k target =>
    unfold workTarget at target
    split at target
    · cases target
    · split at target
      · cases target
      · split at target
        · cases target
        next live =>
          split at target
          next owner =>
            cases target
            exact bodies _ live owner
          · cases target

theorem controlJob_result (body : JobRecord → State → State) (w : JobRecord)
    (bodies : r = 0 → JobResult guard r t (body w t)) : JobResult guard r t (controlJob body w r t) := by
  unfold controlJob
  split
  next control => exact bodies control
  next => exact .answered w _ .same

theorem openSelect_free (w : JobRecord) (k : SessionId) (selected : openSelect w t = .ok k) :
    (t.session k).state = .free := by
  unfold openSelect at selected
  split at selected
  · split at selected
    next isFree => cases selected; exact isFree
    · cases selected
  · split at selected
    next found => cases selected; simpa using List.find?_some found
    · cases selected

theorem openBody_result (w : JobRecord) : JobResult guard r t (openChecked w r t) := by
  unfold openChecked
  split
  · exact .refused w _ 0
  · split
    · exact .refused w _ 0
    · unfold openBody
      split
      · exact .refused w _ 0
      next k selected =>
        split
        · exact .refused w _ 0
        next setup asked =>
          split
          · exact .refused w _ _
          next passes => exact .answered w _ (.opened k w setup (openSelect_free w k selected) asked passes)

theorem closeBody_result (k : SessionId) (w : JobRecord) (live : (t.session k).state ≠ .free) :
    JobResult guard r t (closeBody r k w t) := by
  unfold closeBody
  dsimp only
  split
  · exact .refused w _ _
  · exact .answered w _ (.closed k live)

theorem startBody_result (k : SessionId) (w : JobRecord) (live : (t.session k).state ≠ .free) :
    JobResult guard r t (startBody r k w t) := by
  unfold startBody
  dsimp only
  split
  · exact .refused w _ _
  · split
    · exact .refused w _ _
    · exact .replied w _ _ (effects_updSession t k (·.started (pairLevels (t.session k) t)) (fun _ => live)
        (tame_started _ _))

theorem stopBody_result (k : SessionId) (w : JobRecord) (live : (t.session k).state ≠ .free) :
    JobResult guard r t (stopBody r k w t) := by
  unfold stopBody
  dsimp only
  split
  · exact .refused w _ _
  · exact .replied w _ _ ((effects_updSession t k _ (fun _ => live) (tame_stopped _)).trans
      (effects_completeWaits k _ _))

theorem presetBody_result (k : SessionId) (w : JobRecord) (live : (t.session k).state ≠ .free) :
    JobResult guard r t (presetBody r k w t) := by
  unfold presetBody
  dsimp only
  split
  next passes =>
    have inLimit := (Session.presetOk_iff _ _).mp passes
    exact .replied w _ _ (effects_changeCount k _ t (fun _ => live) inLimit.1)
  next => exact .refused w _ _

theorem readBody_result (k : SessionId) (w : JobRecord) (live : (t.session k).state ≠ .free) :
    JobResult guard r t (readBody r k w t) := by
  unfold readBody
  split
  · exact .refused w _ _
  next item _ => exact .updated k (·.afterRead item (w.flag 0)) w _ live (tame_afterRead _ _ _)

theorem loadRefusal_few (w : JobRecord) (timed : Bool) (passes : loadRefusal w timed = none) :
    (w.byte 8).toNat ≤ Config.maxPoints := by
  unfold loadRefusal at passes
  dsimp only at passes
  split at passes
  · cases passes
  · split at passes
    · cases passes
    · split at passes
      · cases passes
      · omega

theorem loadPointsBody_result (k : SessionId) (w : JobRecord) (live : (t.session k).state ≠ .free) :
    JobResult guard r t (loadPointsBody r k w t) := by
  unfold loadPointsBody
  dsimp only
  split
  · exact .refused w _ _
  · exact .refused w _ _
  next mode passes _ =>
    split
    · exact .updated k (·.stage [] mode) w _ live (tame_stage _ [] mode (listInRange_nil _))
    · exact .fetching k w _ mode live (loadRefusal_few w _ passes)

theorem commitPointsBody_result (k : SessionId) (w : JobRecord) (live : (t.session k).state ≠ .free) :
    JobResult guard r t (commitPointsBody r k w t) := by
  unfold commitPointsBody
  split
  · exact .refused w _ _
  · exact .updated k Session.commit w _ live (tame_commit _)

theorem awaitBody_result (k : SessionId) (w : JobRecord) (live : (t.session k).state ≠ .free)
    (owner : (t.session k).owner = some r) : JobResult guard r t (awaitBody r k w t) := by
  unfold awaitBody
  dsimp only
  split
  · exact .refused w _ _
  next cond _ =>
    split
    · exact .refused w _ _
    next room =>
      split
      · exact .refused w _ _
      next id found =>
        split
        · exact .refused w _ _
        · have isFree : t.wait id = none := by simpa using List.find?_some found
          exact .waiting k w cond id live owner (by omega) isFree

theorem outputsBody_result (k : SessionId) (w : JobRecord) (live : (t.session k).state ≠ .free) :
    JobResult guard r t (outputsBody r k w t) := by
  unfold outputsBody
  split
  · exact .refused w _ _
  · exact .updated k _ w _ live (tame_rest _ _ id _ _ _ _ _ _ _ _ _)

theorem makeJobRingBody_result (w : JobRecord) (control : r = 0) : JobResult guard r t (makeJobRingBody w t) := by
  unfold makeJobRingBody
  split
  · exact .refusedControl control w _ _
  next j named =>
    split
    · exact .refusedControl control w _ _
    next absent =>
      split
      · exact .refusedControl control w _ _
      next bound passes =>
        split
        · exact .refusedControl control w _ _
        next isOpen =>
          have work := ((workJobRingOf_eq_some_iff _ j).mp named).2
          subst control
          exact .answered w _ (.jobRingMade j w bound work (not_not.mp absent) passes (not_not.mp isOpen))

theorem dropJobRingBody_result (w : JobRecord) (control : r = 0) : JobResult guard r t (dropJobRingBody w t) := by
  unfold dropJobRingBody
  split
  · exact .refusedControl control w _ _
  next j named =>
    split
    · exact .refusedControl control w _ _
    next present =>
      split
      · exact .refusedControl control w _ _
      next unowned =>
        split
        · exact .refusedControl control w _ _
        next noFetch =>
          have work := ((workJobRingOf_eq_some_iff _ j).mp named).2
          subst control
          exact .answered w _ (.jobRingDropped j work rfl present (not_not.mp unowned) (by simpa using noFetch))

theorem restartJobRingBody_result (w : JobRecord) (control : r = 0) :
    JobResult guard r t (restartJobRingBody w t) := by
  unfold restartJobRingBody
  split
  · exact .refusedControl control w _ _
  next j _ =>
    split
    · exact .refusedControl control w _ _
    · exact .refusedControl control w _ _
    · exact .refusedControl control w _ _
    next halted =>
      subst control
      exact .answered w _ (.jobRingRestarted j halted)

theorem makeReportRingBody_result (w : JobRecord) (control : r = 0) :
    JobResult guard r t (makeReportRingBody w t) := by
  unfold makeReportRingBody
  split
  · exact .refusedControl control w _ _
  next q _ =>
    split
    · exact .refusedControl control w _ _
    next absent =>
      split
      · exact .refusedControl control w _ _
      next geometry =>
        split
        · exact .refusedControl control w _ _
        next mode _ =>
          have room := ((ringGeometryOk_iff _ _ _).mp (by simpa using geometry)).1
          subst control
          exact .answered w _ (.reportRingMade q _ _ mode (not_not.mp absent) room)

theorem dropReportRingBody_result (w : JobRecord) (control : r = 0) :
    JobResult guard r t (dropReportRingBody w t) := by
  unfold dropReportRingBody
  split
  · exact .refusedControl control w _ _
  next q named =>
    have work := ((workReportRingOf_eq_some_iff _ q).mp named).2
    split
    · exact .refusedControl control w _ _
    next broken => exact .cascaded q _ control work broken
    next isOpen =>
      split
      · exact .refusedControl control w _ _
      next noUser =>
        split
        · exact .unused q _ control work isOpen (not_not.mp noUser)
        · exact .dropping q _ control work isOpen (not_not.mp noUser)

theorem tuneReportRingBody_result (w : JobRecord) (control : r = 0) :
    JobResult guard r t (tuneReportRingBody w t) := by
  unfold tuneReportRingBody
  split
  · exact .refusedControl control w _ _
  next q _ =>
    split
    · exact .refusedControl control w _ _
    next present =>
      split
      · exact .refusedControl control w _ _
      next mode _ =>
        subst control
        exact .answered w _ (.tuned q mode present)

theorem lineSetupBody_result (w : JobRecord) (control : r = 0) : JobResult guard r t (lineSetupBody w t) := by
  unfold lineSetupBody
  split
  next l inverted _ _ =>
    split
    · exact .refusedControl control w _ _
    next wide =>
      split
      · exact .refusedControl control w _ _
      · have narrow : (w.byte 10).toNat ≤ 255 := by have := (w.byte 10).isLt; omega
        subst control
        exact .answered w _ (.lineSet l inverted _ (by omega) narrow)
  next => exact .refusedControl control w _ _

/-- Every job ends its take in one of the forms. -/
theorem jobOf_result (k : Kind) (w : JobRecord) : JobResult guard r t (jobOf k w r t) := by
  cases k with
  | openJob => exact openBody_result w
  | closeJob => exact workJob_result _ w fun k live _ => closeBody_result k w live
  | startJob => exact workJob_result _ w fun k live _ => startBody_result k w live
  | stopJob => exact workJob_result _ w fun k live _ => stopBody_result k w live
  | preset => exact workJob_result _ w fun k live _ => presetBody_result k w live
  | read => exact workJob_result _ w fun k live _ => readBody_result k w live
  | loadPoints => exact workJob_result _ w fun k live _ => loadPointsBody_result k w live
  | commitPoints => exact workJob_result _ w fun k live _ => commitPointsBody_result k w live
  | hold => exact workJob_result _ w fun k live _ => .updated k Session.joinHost w _ live (tame_joinHost _)
  | release =>
    exact workJob_result _ w fun k live _ =>
      .updated k Session.leaveHost w _ live (tame_rest _ _ id _ _ _ _ _ _ _ _ _)
  | awaitJob => exact workJob_result _ w fun k live owner => awaitBody_result k w live owner
  | cancelWait => exact workJob_result _ w fun _ _ _ => .replied w _ _ (effects_cancelList _ t)
  | outputs => exact workJob_result _ w fun k live _ => outputsBody_result k w live
  | makeJobRing => exact controlJob_result _ w (makeJobRingBody_result w)
  | dropJobRing => exact controlJob_result _ w (dropJobRingBody_result w)
  | restartJobRing => exact controlJob_result _ w (restartJobRingBody_result w)
  | makeReportRing => exact controlJob_result _ w (makeReportRingBody_result w)
  | dropReportRing => exact controlJob_result _ w (dropReportRingBody_result w)
  | tuneReportRing => exact controlJob_result _ w (tuneReportRingBody_result w)
  | lineSetup => exact controlJob_result _ w (lineSetupBody_result w)

theorem jobOfRecord_result (w : JobRecord) : JobResult guard r t (jobOfRecord w r t) := by
  unfold jobOfRecord
  cases Kind.ofCode w.kindCode with
  | none => exact .refused w _ 0
  | some k => exact jobOf_result k w

end

/-! ### The forms of a command's effect -/

/-- The next state of a command on `s`. -/
inductive StepResult (guard : Prop) (s : State) : State → Prop where
  | events {u : State} (run : Effects guard s u) : StepResult guard s u
  | edges (lines : BitVec 16) (order : List Delivery) : StepResult guard s (qualifiedEdges lines order (settle s))
  | sampled (levels : BitVec 16) (order : List Delivery) : StepResult guard s (samplePins levels order (periodPasses s))
  | took (c : Choice) (idle : s.taking = none) (chosen : s.choose = some c) : StepResult guard s (beginTake c s)
  | job {u : State} (r : JobRingId) (reading : s.readsFor r) (result : JobResult guard r (recordArrives r s) u) :
      StepResult guard s u
  | fetchFailed (r : JobRingId) (reading : s.readsFor r) : StepResult guard s (recordFetchFailed r s)
  | dropEnded (j : JobRingId) (q : ReportRingId) (tag : BitVec 16)
      (waits : s.taking = some { ring := j, stage := .dropping q tag }) :
      StepResult guard s (finishDrop q tag (settle { s with taking := none }))
  | fetched (n : Nat) (f : PointFetch) (entries : List PointEntry) (found : s.fetches[n]? = some f)
      (whole : entries.length = f.points) : StepResult guard s (endFetch n f (fetchDone f entries (settle s)))
  | fetchBroke (n : Nat) (f : PointFetch) (entry : Nat) (found : s.fetches[n]? = some f) :
      StepResult guard s (endFetch n f (fetchFailed f entry (settle s)))
  | batchExpired (q : ReportRingId) (expired : (s.reportRing q).batchTimer = some 0) :
      StepResult guard s (raiseBit q (s.updReportRing q ReportRing.restartBatch))
  | strayEnded (q : ReportRingId) (lands : Bool) : StepResult guard s (endStray q lands s)
  | wrote (q : ReportRingId) (p : Placed) (rest : List Placed) (oldest : (s.reportRing q).unwritten = p :: rest) :
      StepResult guard s (writeDone q p rest s)
  | broke (q : ReportRingId) (underWay : (s.reportRing q).unwritten ≠ []) : StepResult guard s (ringBreaks q s)
  | posted (word : Word32) : StepResult guard s (postWrite word s)
  | released (word : Word32) : StepResult guard s (releaseWrite word s)
  | registers (phase : Phase) (intEnable badIndex : Bool) (lo hi : Word32) (jr0 rr0 : BitVec 9) (bits : BitVec 8)
      (stamp : Word32) :
      StepResult guard s
        { s with phase, intEnable, badIndex, crBaseLo := lo, crBaseHi := hi, crJr0Size := jr0, crRr0Size := rr0,
                 intPending := bits, stamp }
  | ran (intEnable run : Bool) (sound : s.fatalCause = .none) : StepResult guard s { s with intEnable, run }
  | startedUp (intEnable : Bool) (sound : s.fatalCause = .none) (idle : s.run = false)
      (absent : (s.jobRing 0).state = .absent) :
      StepResult guard s (startPart { s with intEnable })
  | engineReset (intEnable : Bool) : StepResult guard s (engineResets { s with intEnable })
  | hardwareReset :
      StepResult guard s
        { State.reset with
          pending := s.pending, strays := s.strays ++ s.inFlightWrites, hostMemory := s.hostMemory }
  | resetRose (levels : BitVec 16) (phase : Phase) :
      StepResult guard s (firstSamples levels allLines { s with phase })

section
variable {guard : Prop} {s : State}

theorem StepResult.same : StepResult guard s s := .events (.refl s)

theorem withTaken_result (job : JobRingId → State → State)
    (jobs : ∀ r t, JobResult guard r t (job r t)) : StepResult guard s (withTaken job s) := by
  by_cases reading : ∃ r, s.readsFor r
  · obtain ⟨r, reading⟩ := reading
    rw [withTaken_reading job s r reading]
    exact .job r reading (jobs r _)
  · rw [withTaken_no_read job s (not_exists.mp reading)]
    exact .same

theorem controlWrite_result (word : Word32) : StepResult guard s (controlWrite word s) := by
  unfold controlWrite
  dsimp only
  split
  · exact .engineReset _
  · unfold runWrite
    split
    · exact .registers s.phase (controlIntEnable word) s.badIndex s.crBaseLo s.crBaseHi s.crJr0Size s.crRr0Size s.intPending s.stamp
    next working =>
      have sound : s.fatalCause = .none := by simpa [State.isFatal] using working
      split
      next starts => exact .startedUp _ sound starts.2.1 starts.2.2
      next => exact .ran _ _ sound

theorem statusWrite_result (word : Word32) : StepResult guard s (statusWrite word s) := by
  unfold statusWrite
  split
  · exact .registers s.phase s.intEnable false s.crBaseLo s.crBaseHi s.crJr0Size s.crRr0Size s.intPending s.stamp
  · exact .same

theorem regionWrite_result (reg : CrRegister) (word : Word32) : StepResult guard s (regionWrite reg word s) := by
  unfold regionWrite
  split
  · exact .same
  · cases reg with
    | baseLo => exact .registers s.phase s.intEnable s.badIndex word s.crBaseHi s.crJr0Size s.crRr0Size s.intPending s.stamp
    | baseHi => exact .registers s.phase s.intEnable s.badIndex s.crBaseLo word s.crJr0Size s.crRr0Size s.intPending s.stamp
    | sizes => exact .registers s.phase s.intEnable s.badIndex s.crBaseLo s.crBaseHi _ _ s.intPending s.stamp

theorem clearPending_result (word : Word32) : StepResult guard s (clearPending word s) :=
  .registers s.phase s.intEnable s.badIndex s.crBaseLo s.crBaseHi s.crJr0Size s.crRr0Size _ s.stamp

/-- A change of the phase alone. -/
theorem phase_result (phase : Phase) : StepResult guard s { s with phase } :=
  .registers phase s.intEnable s.badIndex s.crBaseLo s.crBaseHi s.crJr0Size s.crRr0Size s.intPending s.stamp

theorem windowWrite_result (offset : Nat) (word : Word32) : StepResult guard s (windowWrite offset word s) := by
  unfold windowWrite
  split
  · exact controlWrite_result word
  · exact statusWrite_result word
  · exact regionWrite_result _ word
  · exact regionWrite_result _ word
  · exact regionWrite_result _ word
  · exact .posted word
  · exact .released word
  · exact clearPending_result word
  · exact .same

theorem ite_result {c : Prop} [Decidable c] {u v : State} (yes : c → StepResult guard s u) (no : ¬c → StepResult guard s v) :
    StepResult guard s (if c then u else v) := by
  split
  next h => exact yes h
  next h => exact no h

/-- Every command answers a next state in one of the forms. -/
theorem exec_result (c : Instr) (s : State) (empty : guard → s.FreeEntriesEmpty) :
    ∃ u, exec c s = .next u ∧ StepResult guard s u := by
  have settled := effects_settle (guard := guard) s empty
  cases c with
  | jobTake fetched =>
    cases fetched with
    | none =>
      refine ⟨_, rfl, ?_⟩
      change StepResult guard s (takerChoice s)
      unfold takerChoice
      split
      · exact .same
      next idle =>
        split
        · exact .same
        next c chosen => exact .took c idle chosen
    | some w => exact ⟨_, rfl, withTaken_result _ fun _ _ => jobOfRecord_result w⟩
  | recordFetchError =>
    refine ⟨_, rfl, ?_⟩
    split
    · exact .same
    next t taking =>
      split
      next address stage => exact .fetchFailed t.ring ⟨address, by rw [taking, ← stage]⟩
      · exact .same
  | openJob w => exact ⟨_, rfl, withTaken_result _ fun _ _ => jobOf_result .openJob w⟩
  | closeJob w => exact ⟨_, rfl, withTaken_result _ fun _ _ => jobOf_result .closeJob w⟩
  | startJob w => exact ⟨_, rfl, withTaken_result _ fun _ _ => jobOf_result .startJob w⟩
  | stopJob w => exact ⟨_, rfl, withTaken_result _ fun _ _ => jobOf_result .stopJob w⟩
  | preset w => exact ⟨_, rfl, withTaken_result _ fun _ _ => jobOf_result .preset w⟩
  | read w => exact ⟨_, rfl, withTaken_result _ fun _ _ => jobOf_result .read w⟩
  | loadPoints w => exact ⟨_, rfl, withTaken_result _ fun _ _ => jobOf_result .loadPoints w⟩
  | commitPoints w => exact ⟨_, rfl, withTaken_result _ fun _ _ => jobOf_result .commitPoints w⟩
  | hold w => exact ⟨_, rfl, withTaken_result _ fun _ _ => jobOf_result .hold w⟩
  | release w => exact ⟨_, rfl, withTaken_result _ fun _ _ => jobOf_result .release w⟩
  | awaitJob w => exact ⟨_, rfl, withTaken_result _ fun _ _ => jobOf_result .awaitJob w⟩
  | cancelWait w => exact ⟨_, rfl, withTaken_result _ fun _ _ => jobOf_result .cancelWait w⟩
  | outputs w => exact ⟨_, rfl, withTaken_result _ fun _ _ => jobOf_result .outputs w⟩
  | makeJobRing w => exact ⟨_, rfl, withTaken_result _ fun _ _ => jobOf_result .makeJobRing w⟩
  | dropJobRing w => exact ⟨_, rfl, withTaken_result _ fun _ _ => jobOf_result .dropJobRing w⟩
  | restartJobRing w => exact ⟨_, rfl, withTaken_result _ fun _ _ => jobOf_result .restartJobRing w⟩
  | makeReportRing w => exact ⟨_, rfl, withTaken_result _ fun _ _ => jobOf_result .makeReportRing w⟩
  | dropReportRing w => exact ⟨_, rfl, withTaken_result _ fun _ _ => jobOf_result .dropReportRing w⟩
  | reportRingDropped =>
    refine ⟨_, rfl, ?_⟩
    split
    · exact .same
    next t taking =>
      split
      · exact .same
      next q tag stage => exact ite_result (fun _ => .dropEnded t.ring q tag (by rw [taking, ← stage])) fun _ => .same
  | tuneReportRing w => exact ⟨_, rfl, withTaken_result _ fun _ _ => jobOf_result .tuneReportRing w⟩
  | lineSetup w => exact ⟨_, rfl, withTaken_result _ fun _ _ => jobOf_result .lineSetup w⟩
  | pointFetchDone n entries =>
    refine ⟨_, rfl, ?_⟩
    split
    · exact .same
    next f found => exact ite_result (fun whole => .fetched n f entries found whole) fun _ => .same
  | pointFetchError n entry =>
    refine ⟨_, rfl, ?_⟩
    split
    · exact .same
    next f found => exact ite_result (fun _ => .same) fun _ => .fetchBroke n f entry found
  | qualifiedEdge lines order => exact ⟨_, rfl, ite_result (fun _ => .same) fun _ => .edges _ order⟩
  | tick rate order =>
    exact ⟨_, rfl, .events (settled.trans (effects_tickList rate _ _ (settled.freeEmpty empty)))⟩
  | windowTimerExpiry i =>
    refine ⟨_, rfl, ite_result (fun due => .events (effects_windowEnd i s (liveIf_of_used empty fun h => ?_))) fun _ => .same⟩
    simp [h, Session.timerExpired] at due
  | intervalWindowEnd i =>
    refine ⟨_, rfl, ite_result (fun due => .events (effects_windowEnd i s (liveIf_of_used empty fun h => ?_))) fun _ => .same⟩
    simp [h] at due
  | paceMark f => exact ⟨_, rfl, .events (settled.trans (effects_takeMark f _))⟩
  | pulseExpiry l => exact ⟨_, rfl, ite_result (fun _ => .events (Effect.output l _).run) fun _ => .same⟩
  | waitTimeout x =>
    refine ⟨_, rfl, ?_⟩
    split
    · exact .same
    next e _ =>
      split
      · exact .events (settled.trans (Effect.complete x _ _).run)
      · exact .same
  | batchTimerExpiry q => exact ⟨_, rfl, ite_result (fun expired => .batchExpired q expired) fun _ => .same⟩
  | reportWriteDone q =>
    refine ⟨_, rfl, ?_⟩
    split
    · exact .strayEnded q true
    next p rest oldest => exact .wrote q p rest oldest
  | reportWriteError q =>
    refine ⟨_, rfl, ?_⟩
    split
    · exact .strayEnded q false
    next underWay => exact .broke q (by simp [underWay])
  | jpost word => exact ⟨_, rfl, ite_result (fun _ => .posted word) fun _ => .same⟩
  | rrelease word => exact ⟨_, rfl, ite_result (fun _ => .released word) fun _ => .same⟩
  | intPending word => exact ⟨_, rfl, ite_result (fun _ => clearPending_result word) fun _ => .same⟩
  | badIndexClear word => exact ⟨_, rfl, ite_result (fun _ => statusWrite_result word) fun _ => .same⟩
  | run word => exact ⟨_, rfl, ite_result (fun _ => controlWrite_result word) fun _ => .same⟩
  | startUp word => exact ⟨_, rfl, ite_result (fun _ => controlWrite_result word) fun _ => .same⟩
  | intEnable word => exact ⟨_, rfl, ite_result (fun _ => controlWrite_result word) fun _ => .same⟩
  | engineReset word => exact ⟨_, rfl, ite_result (fun _ => controlWrite_result word) fun _ => .same⟩
  | engineResetEnd => exact ⟨_, rfl, ite_result (fun _ => phase_result _) fun _ => .same⟩
  | controlRegionWrite reg word => exact ⟨_, rfl, ite_result (fun _ => regionWrite_result reg word) fun _ => .same⟩
  | registerWrite offset word => exact ⟨_, rfl, ite_result (fun _ => windowWrite_result offset word) fun _ => .same⟩
  | hardwareReset => exact ⟨_, rfl, .hardwareReset⟩
  | resetNRise levels => exact ⟨_, rfl, ite_result (fun _ => .resetRose levels _) fun _ => .same⟩
  | initialisationEnd => exact ⟨_, rfl, ite_result (fun _ => phase_result _) fun _ => .same⟩
  | rawPinSample levels order => exact ⟨_, rfl, ite_result (fun _ => .same) fun _ => .sampled levels order⟩
  | stampClockAdvance =>
    exact ⟨_, rfl, ite_result (fun _ => .same) fun _ =>
      .registers s.phase s.intEnable s.badIndex s.crBaseLo s.crBaseHi s.crJr0Size s.crRr0Size s.intPending _⟩

end

/-- An invariant that does not look at the queue and that every form of a command's effect keeps is kept by every step. -/
theorem step_keeps {P : State → Prop} (guard : Prop) (empty : ∀ s, P s → guard → s.FreeEntriesEmpty)
    (queue : ∀ s pending, P s → P { s with pending }) (forms : ∀ s t, P s → StepResult guard s t → P t) {s t : State}
    (start : P s) (stepped : step s = .next t) : P t := by
  unfold step at stepped
  split at stepped
  · cases stepped
    exact start
  next c rest _ =>
    obtain ⟨u, result, form⟩ := exec_result c { s with pending := rest } (empty _ (queue s rest start))
    rw [result] at stepped
    cases stepped
    exact forms _ _ (queue s rest start) form

end Sys2Proof.Machine

/-!
PROOFS. What effects reach; a close up to the moment at which its entry is FREE (R16, R19); the entry that OPEN
configures (R7, R9); and the points that the array check accepts (R73). With them the ranges of counts and lists over every
step (R1, R28, R29, R60).
-/

namespace Sys2Proof.Machine

/-! ### What effects reach -/

theorem Effect.frame {guard : Prop} {s t : State} (h : Effect guard s t) : EventFrame s t := by
  cases h with
  | post i kind status index value flags live => exact eventFrame_postRecord _ _ _ _ _ _ _
  | entry i e live mild tame => exact eventFrame_setSession s i e
  | marks i => exact eventFrame_handMarks i s
  | taken f p out paced after => exact eventFrame_updSession s p _
  | complete w status stamp => exact eventFrame_completeWaitAt w status stamp s
  | discard w => exact eventFrame_discardWait w s
  | lower w e cond found => exact eventFrame_setWait s w _
  | output l o => exact eventFrame_setOutput s l o

theorem Effects.frame {guard : Prop} {s t : State} (h : Effects guard s t) : EventFrame s t :=
  h.keep (P := EventFrame s) (fun _ _ effect before => before.trans effect.frame) (.refl s)

/-- The setup of a line is a change of that line and then effects of the edge at sessions. -/
theorem setUpLine_effects {guard : Prop} (l : LineId) (inverted : Bool) (width : Nat) (t : State) :
    Effects guard (t.setLine l { t.line l with inverted, width }) (setUpLine l inverted width t) := by
  unfold setUpLine
  dsimp only
  split
  · exact .refl _
  · exact effects_handEdges _ _ _

/-! ### A close up to the moment at which its entry is FREE -/

/-- The state of a close in which its followers and its pacer are gone and its waits have ended (R16, steps 1 to 3). -/
def beforeFreed (endWaits : SessionId → State → State) (k : SessionId) (s : State) : State :=
  endWaits k (leavePacer k (releaseFollowers k ((flushMarks k s).session k).followers (flushMarks k s)))

/-- What is left of a close then: fetch, outputs, parked records, entry (R16, steps 4 to 7). -/
theorem closeSession_eq (endWaits : SessionId → State → State) (k : SessionId) (s : State) :
    closeSession endWaits k s =
      (purgeSession k (releaseOutputs k (voidFetches k (beforeFreed endWaits k s)))).setSession k {} := rfl

theorem mild_links (e : Session) (pacer : Option SessionId) (followers : List SessionId)
    (marks : List (List SessionId)) : Mild e { e with pacer, followers, marksOut := marks } :=
  .of_eq id rfl rfl rfl (.inr rfl) rfl (.inl rfl) (.inl rfl) rfl rfl rfl rfl

theorem mild_releasedFromPacer (e : Session) : Mild e e.releasedFromPacer := by
  unfold Session.releasedFromPacer
  split
  · exact .of_eq (by simp) rfl rfl rfl (.inr rfl) rfl (.inl rfl) (.inl rfl) rfl rfl rfl rfl
  · exact .of_eq id rfl rfl rfl (.inr rfl) rfl (.inl rfl) (.inl rfl) rfl rfl rfl rfl

/-- Without the guard an update need only be mild. -/
theorem effects_mild (s : State) (i : SessionId) (f : Session → Session) (mild : Mild (s.session i) (f (s.session i))) :
    Effects False s (s.updSession i f) := (Effect.entry i _ (fun h => h.elim) mild fun h => h.elim).run

theorem effects_releaseFollower (p f : SessionId) (s : State) : Effects False s (releaseFollower p f s) := by
  have released := effects_mild s f _ (mild_releasedFromPacer _)
  have erased := released.trans (effects_mild _ p (fun e => { e with followers := e.followers.erase f }) (mild_links _ _ _ _))
  exact (erased.trans (effects_completeWaits f _ _)).trans (Effect.post f _ _ _ _ _ fun h => h.elim).run

theorem effects_releaseFollowers (p : SessionId) (l : List SessionId) (s : State) :
    Effects False s (releaseFollowers p l s) := by
  induction l generalizing s with
  | nil => exact .refl s
  | cons f rest ih => exact (effects_releaseFollower p f s).trans (ih _)

theorem effects_leavePacer (k : SessionId) (s : State) : Effects False s (leavePacer k s) := by
  unfold leavePacer
  split
  · exact .refl s
  · exact (effects_mild s _ _ (mild_links _ _ _ _)).trans (effects_mild _ k _ (mild_links _ _ _ _))

theorem effects_beforeFreed {endWaits : SessionId → State → State} (ends : ∀ k s, Effects False s (endWaits k s))
    (k : SessionId) (s : State) : Effects False s (beforeFreed endWaits k s) :=
  (((effects_flushMarks k s).trans (effects_releaseFollowers k _ _)).trans (effects_leavePacer k _)).trans (ends k _)

theorem effects_closeWaits (k : SessionId) (s : State) : Effects False s (closeWaits k s) := effects_completeWaits k _ s

theorem effects_dropWaits (k : SessionId) (s : State) : Effects False s (dropWaits k s) := effects_discardWaits _ s

/-! ### The entry that OPEN configures -/

/-- Every field that OPEN does not set is at its first value. -/
def Session.Fresh (e : Session) : Prop :=
  e = { mode := e.mode, lineA := e.lineA, lineB := e.lineB, inhibitLine := e.inhibitLine, edgeSelect := e.edgeSelect,
        resolution := e.resolution, policy := e.policy, limit := e.limit, tick := e.tick, windowSource := e.windowSource,
        windowLength := e.windowLength, reportWindows := e.reportWindows, pacer := e.pacer, claims := e.claims,
        pulseWidth := e.pulseWidth }

/-- Each mode is set up by a chain of checks whose last step builds a fresh entry. -/
theorem openModeSetup_fresh (w : JobRecord) (mode : Mode) (e : Session) (asked : openModeSetup w mode = some e) :
    e.Fresh := by
  have last {α : Type} {o : Option α} {f : α → Option Session} (h : o.bind f = some e) : ∃ x, f x = some e := by
    obtain ⟨x, -, hx⟩ := Option.bind_eq_some_iff.mp h
    exact ⟨x, hx⟩
  cases mode with
  | tally =>
    obtain ⟨a, asked⟩ := last asked
    obtain ⟨sel, asked⟩ := last asked
    cases asked
    rfl
  | quad =>
    obtain ⟨a, asked⟩ := last asked
    obtain ⟨b, asked⟩ := last asked
    obtain ⟨res, asked⟩ := last asked
    obtain ⟨pol, asked⟩ := last asked
    split at asked
    · cases asked
    · cases asked
      rfl
  | split =>
    obtain ⟨a, asked⟩ := last asked
    obtain ⟨b, asked⟩ := last asked
    split at asked
    · cases asked
    · cases asked
      rfl
  | rate =>
    obtain ⟨a, asked⟩ := last asked
    obtain ⟨sel, asked⟩ := last asked
    obtain ⟨source, asked⟩ := last asked
    cases source with
    | own =>
      obtain ⟨t, asked⟩ := last asked
      obtain ⟨len, asked⟩ := last asked
      cases asked
      rfl
    | pacer =>
      obtain ⟨p, asked⟩ := last asked
      cases asked
      rfl
  | span =>
    obtain ⟨a, asked⟩ := last asked
    obtain ⟨t, asked⟩ := last asked
    cases asked
    rfl
  | interval =>
    obtain ⟨t, asked⟩ := last asked
    obtain ⟨source, asked⟩ := last asked
    cases source with
    | own =>
      obtain ⟨len, asked⟩ := last asked
      split at asked
      · cases asked
      · cases asked
        rfl
    | pacer =>
      obtain ⟨p, asked⟩ := last asked
      cases asked
      rfl

/-- The parts of a setup that R7 accepts. -/
theorem openSetup_eq_some_iff (w : JobRecord) (e : Session) :
    openSetup w = some e ↔
      ∃ mode limit setup inhibit, modeOf (w.byte 9) = some mode ∧ limitOf (w.word 16) = some limit ∧
        openModeSetup w mode = some setup ∧ inhibitOf (w.byte 12) setup = some inhibit ∧
        ¬(w.byte 23 ≠ 0 ∧ w.half 28 = 0) ∧
        e = { setup with
              limit := some limit, inhibitLine := inhibit, claims := w.byte 23
              pulseWidth := if w.byte 23 = 0 then none else some (w.half 28).toNat } := by
  simp only [openSetup, Option.bind_eq_bind, Option.bind_eq_some_iff, Option.ite_none_left_eq_some, Option.some.injEq]
  constructor
  · rintro ⟨mode, hmode, limit, hlimit, setup, hsetup, inhibit, hinhibit, width, rfl⟩
    exact ⟨mode, limit, setup, inhibit, hmode, hlimit, hsetup, hinhibit, width, rfl⟩
  · rintro ⟨mode, limit, setup, inhibit, hmode, hlimit, hsetup, hinhibit, width, rfl⟩
    exact ⟨mode, hmode, limit, hlimit, setup, hsetup, inhibit, hinhibit, width, rfl⟩

theorem openSetup_fresh (w : JobRecord) (e : Session) (asked : openSetup w = some e) : e.Fresh := by
  obtain ⟨mode, limit, setup, inhibit, -, -, hsetup, -, -, rfl⟩ := (openSetup_eq_some_iff w e).mp asked
  have fresh := openModeSetup_fresh w mode setup hsetup
  unfold Session.Fresh at fresh ⊢
  rw [fresh]

/-- The session's entry as OPEN makes it, and its pacer's list. -/
theorem configure_session (r : JobRingId) (k : SessionId) (w : JobRecord) (setup : Session) (t : State)
    (other : setup.pacer ≠ some k) (j : SessionId) :
    (configure r k w setup t).session j =
      if j = k then openedSession r w setup t
      else if setup.pacer = some j then { t.session j with followers := (t.session j).followers ++ [k] }
      else t.session j := by
  have claimed (l : List OutputId) : ∀ u : State, (claimOutputs k setup.claims l u).session j = u.session j := by
    induction l with
    | nil => exact fun _ => rfl
    | cons o rest ih =>
      intro u
      rw [claimOutputs, ih]
      split <;> rfl
  rw [configure, claimed]
  unfold joinPacerList
  split
  next paced => simp [paced, State.session_setSession]
  next p paced =>
    have different : p ≠ k := fun same => other (by rw [paced, same])
    rw [State.session_updSession]
    by_cases hj : j = p
    · subst hj
      simp [paced, different, State.session_setSession]
    · simp [paced, hj, Ne.symm hj, State.session_setSession]

/-- OPEN reaches sessions and output lines only. -/
theorem configure_frame (r : JobRingId) (k : SessionId) (w : JobRecord) (setup : Session) (t : State) :
    configure r k w setup t =
      { t with sessions := (configure r k w setup t).sessions, outputs := (configure r k w setup t).outputs } := by
  have claimed (l : List OutputId) : ∀ u : State,
      claimOutputs k setup.claims l u = { u with outputs := (claimOutputs k setup.claims l u).outputs } := by
    induction l with
    | nil => exact fun _ => rfl
    | cons o rest ih =>
      intro u
      rw [claimOutputs, ih]
      split <;> rfl
  rw [configure, claimed]
  unfold joinPacerList
  split <;> rfl

/-- A pacer that OPEN accepts is not FREE. -/
theorem openRefusal_pacer (r : JobRingId) (w : JobRecord) (setup : Session) (t : State)
    (passes : openRefusal r w setup t = none) (p : SessionId) (paced : setup.pacer = some p) :
    (t.session p).state ≠ .free ∧ (t.session p).pacer = none ∧
      (t.session p).followers.length < Config.maxFollowers ∧ (t.session p).owner = some r := by
  unfold openRefusal at passes
  split at passes
  · cases passes
  · split at passes
    · cases passes
    · dsimp only at passes
      rw [paced] at passes
      dsimp only at passes
      by_cases unfit : (t.session p).state = .free ∨ (t.session p).pacer.isSome = true ∨
          Config.maxFollowers ≤ (t.session p).followers.length
      · rw [if_pos unfit] at passes
        cases passes
      · rw [if_neg unfit] at passes
        by_cases owner : (t.session p).owner ≠ some r
        · rw [if_pos owner] at passes
          cases passes
        · simp only [not_or, not_le, Option.not_isSome_iff_eq_none] at unfit
          exact ⟨unfit.1, unfit.2.1, unfit.2.2, not_not.mp owner⟩

theorem openRefusal_other (r : JobRingId) (w : JobRecord) (setup : Session) (t : State)
    (passes : openRefusal r w setup t = none) (k : SessionId) (isFree : (t.session k).state = .free) :
    setup.pacer ≠ some k := fun paced => (openRefusal_pacer r w setup t passes k paced).1 isFree

/-! ### The points that the array check accepts -/

theorem pointOf_value (p : PointEntry) (previous : Option Nat) (limit : Nat) (claims : BitVec 8) (point : Point)
    (accepted : pointOf p previous limit claims = some point) :
    (∀ v, previous = some v → v < point.value) ∧ point.value ≤ limit := by
  unfold pointOf at accepted
  dsimp only at accepted
  split at accepted
  · split at accepted
    next passes =>
      cases accepted
      refine ⟨fun v before => ?_, passes.2.1⟩
      simpa [before] using passes.1
    · cases accepted
  · cases accepted

theorem checkPoints_ok (limit : Nat) (claims : BitVec 8) (entries : List PointEntry) (index : Nat)
    (previous : Option Nat) (points : List Point) (accepted : checkPoints limit claims index previous entries = .ok points) :
    points.length = entries.length ∧ points.Pairwise (fun p q => p.value < q.value) ∧
      (∀ p ∈ points, p.value ≤ limit) ∧ ∀ v, previous = some v → ∀ p ∈ points, v < p.value := by
  induction entries generalizing index previous points with
  | nil =>
    simp only [checkPoints, Except.ok.injEq] at accepted
    subst accepted
    simp
  | cons entry rest ih =>
    simp only [checkPoints] at accepted
    split at accepted
    · cases accepted
    next point first =>
      split at accepted
      · cases accepted
      next more tail =>
        cases accepted
        obtain ⟨length, rising, bounded, above⟩ := ih _ _ _ tail
        obtain ⟨after, inLimit⟩ := pointOf_value _ _ _ _ _ first
        refine ⟨by simp [length], List.pairwise_cons.mpr ⟨above _ rfl, rising⟩, ?_, fun v before => ?_⟩
        · simpa [inLimit] using bounded
        · simp only [List.mem_cons, forall_eq_or_imp]
          exact ⟨after v before, fun p hp => (after v before).trans (above _ rfl p hp)⟩

theorem checkPoints_inRange (limit : Nat) (claims : BitVec 8) (entries : List PointEntry) (points : List Point)
    (few : entries.length ≤ Config.maxPoints) (accepted : checkPoints limit claims 0 none entries = .ok points) :
    ListInRange limit points := by
  obtain ⟨length, rising, bounded, -⟩ := checkPoints_ok _ _ _ _ _ _ accepted
  exact ⟨by omega, rising, bounded⟩

/-! ### What the arrival of a record leaves alone -/

theorem recordArrives_eq (r : JobRingId) (s : State) :
    recordArrives r s = { (settle s).setJobRing r ((settle s).jobRing r).advance with taking := none } := rfl

/-- A returned place reaches report rings only. -/
theorem returnReservation_sessions (q : ReportRingId) (s : State) : (returnReservation q s).sessions = s.sessions := by
  unfold returnReservation
  split <;> rfl

/-! ### A period of the reference clock and the end of a bus write -/

theorem periodPasses_sessions (s : State) : (periodPasses s).sessions = s.sessions := by simp only [periodPasses]

theorem periodPasses_fetches (s : State) : (periodPasses s).fetches = s.fetches := by simp only [periodPasses]

theorem State.setReportRing_twice (s : State) (q : ReportRingId) (e e' : ReportRing) :
    (s.setReportRing q e).setReportRing q e' = s.setReportRing q e' := by
  simp [State.setReportRing]

theorem State.setReportRing_self (s : State) (q : ReportRingId) : s.setReportRing q (s.reportRing q) = s := by
  simp [State.setReportRing, State.reportRing]

/-- Notification changes the count and the timer of the ring and the INT_PENDING bits (R159). -/
theorem recordWritten_eq (q : ReportRingId) (s : State) :
    ∃ (n : Nat) (timer : Option Nat) (bits : BitVec 8), recordWritten q s =
      { s.setReportRing q { s.reportRing q with unnotified := n, batchTimer := timer } with intPending := bits } := by
  unfold recordWritten raiseBit
  split
  · refine ⟨(s.reportRing q).unnotified, (s.reportRing q).batchTimer, s.intPending, ?_⟩
    exact (State.setReportRing_self s q).symm
  · refine ⟨(s.reportRing q).unnotified, (s.reportRing q).batchTimer, s.intPending ||| ringBit q, ?_⟩
    rw [State.setReportRing_self s q]
  · dsimp only
    split
    · exact ⟨_, _, _, rfl⟩
    · split
      · exact ⟨_, _, s.intPending, rfl⟩
      · exact ⟨_, (s.reportRing q).batchTimer, s.intPending, rfl⟩

/-- A write that completes: the bytes, the oldest unwritten record gone, and notification (R146, R159). -/
theorem writeDone_eq (q : ReportRingId) (p : Placed) (rest : List Placed) (s : State) :
    ∃ (n : Nat) (timer : Option Nat) (bits : BitVec 8), writeDone q p rest s =
      { s.setReportRing q { s.reportRing q with unwritten := rest, unnotified := n, batchTimer := timer } with
        hostMemory := s.hostMemory.writeBytes ((s.reportRing q).slotAddress p.slot) (recordBytes (p.record.encode p.lap))
        intPending := bits } := by
  unfold writeDone storeRecord
  generalize s.hostMemory.writeBytes ((s.reportRing q).slotAddress p.slot) (recordBytes (p.record.encode p.lap)) = m
  obtain ⟨n, timer, bits, written⟩ :=
    recordWritten_eq q (({ s with hostMemory := m } : State).updReportRing q (fun r => { r with unwritten := rest }))
  refine ⟨n, timer, bits, ?_⟩
  rw [written, State.reportRing_updReportRing, if_pos rfl, State.updReportRing, State.setReportRing_twice]
  rfl
/-! ### Ranges over every step (R1, R28, R29, R60) -/

theorem Session.inRange_default : Session.InRange {} := by
  refine ⟨Nat.zero_le _, Nat.zero_le _, Nat.zero_le _, Nat.zero_le _, Nat.zero_le _, listInRange_nil _, ?_⟩
  simp

/-- The ranges are about the session entries and the fetches. -/
theorem State.InRange.of_same {s t : State} (h : s.InRange) (entries : ∀ k, (t.session k).InRange)
    (fetches : t.fetches = s.fetches) : t.InRange := ⟨entries, fetches ▸ h.2⟩

theorem State.InRange.congr {s t : State} (h : s.InRange) (sessions : t.sessions = s.sessions)
    (fetches : t.fetches = s.fetches) : t.InRange :=
  h.of_same (fun k => by rw [State.session_congr s t sessions]; exact h.1 k) fetches

theorem Effect.inRange {guard : Prop} {s t : State} (h : Effect guard s t) (before : s.InRange) : t.InRange := by
  refine before.of_same (fun j => ?_) h.frame.fetches
  have entry := before.1 j
  cases h with
  | post i kind status index value flags live =>
    obtain ⟨count, wraps, illegal, -, rest⟩ := entry
    rcases postRecord_session i j kind status index value flags s with same | ⟨rfl, taken | dropped⟩
    · rw [same]
      exact before.1 j
    · rw [taken]
      exact ⟨count, wraps, illegal, Nat.zero_le _, rest⟩
    · rw [dropped]
      exact ⟨count, wraps, illegal, satInc_le _, rest⟩
  | entry i e live mild tame =>
    rw [State.session_setSession]
    split
    · exact mild.inRange (before.1 i)
    · exact entry
  | marks i =>
    rw [handMarks_session]
    split
    · exact before.1 i
    · exact entry
  | taken f p out paced after =>
    rw [State.session_updSession]
    split
    · exact before.1 p
    · exact entry
  | complete w status stamp =>
    cases found : s.wait w with
    | none => simpa [completeWaitAt, found] using entry
    | some e =>
      rw [completeWaitAt_session w status stamp s e found]
      split <;> exact entry
  | discard w =>
    cases found : s.wait w with
    | none => simpa [discardWait, found] using entry
    | some e =>
      rw [discardWait_session w s e found]
      split <;> exact entry
  | lower w e cond found => exact entry
  | output l o => exact entry

theorem Effects.inRange {guard : Prop} {s t : State} (h : Effects guard s t) (before : s.InRange) : t.InRange :=
  h.keep (fun _ _ effect => effect.inRange) before

theorem closeSession_inRange {endWaits : SessionId → State → State} (ends : ∀ k s, Effects False s (endWaits k s))
    (k : SessionId) {s : State} (h : s.InRange) : (closeSession endWaits k s).InRange := by
  have before := (effects_beforeFreed ends k s).inRange h
  rw [closeSession_eq]
  have purged (u : State) : (∀ j, (purgeSession k u).session j = u.session j) ∧ (purgeSession k u).fetches = u.fetches := by
    unfold purgeSession
    split <;> exact ⟨fun _ => rfl, rfl⟩
  constructor
  · intro j
    rw [State.session_setSession]
    split
    · exact Session.inRange_default
    · rw [(purged _).1]
      exact before.1 j
  · intro f hf
    rw [State.setSession_fetches, (purged _).2] at hf
    simp only [releaseOutputs, voidFetches, List.mem_map] at hf
    obtain ⟨g, hg, rfl⟩ := hf
    have few := before.2 g hg
    split <;> exact few

theorem configure_inRange (r : JobRingId) (k : SessionId) (w : JobRecord) (setup : Session) {t : State} (h : t.InRange)
    (isFree : (t.session k).state = .free) (asked : openSetup w = some setup)
    (passes : openRefusal r w setup t = none) : (configure r k w setup t).InRange := by
  refine h.of_same (fun j => ?_) (by rw [configure_frame])
  rw [configure_session r k w setup t (openRefusal_other r w setup t passes k isFree)]
  have fresh := openSetup_fresh w setup asked
  split
  · unfold openedSession
    rw [fresh]
    refine ⟨Nat.zero_le _, Nat.zero_le _, Nat.zero_le _, Nat.zero_le _, Nat.zero_le _, listInRange_nil _, ?_⟩
    simp
  · split <;> exact h.1 j

theorem JobDone.inRange {guard : Prop} {r : JobRingId} {t u : State} (done : JobDone guard r t u) (h : t.InRange) :
    u.InRange := by
  cases done with
  | effects run => exact run.inRange h
  | opened k w setup isFree asked passes => exact configure_inRange r k w setup h isFree asked passes
  | closed k live => exact closeSession_inRange effects_closeWaits k h
  | lineSet l inverted width wide narrow =>
    have set : (t.setLine l { t.line l with inverted, width }).InRange := h
    exact (setUpLine_effects (guard := False) l inverted width t).inRange set
  | jobRingMade | jobRingDropped | jobRingRestarted | reportRingMade | tuned => exact h

/-- An answer reaches the rings only. -/
theorem answer_inRange (r : JobRingId) (report : ReportRingId) (tag : BitVec 16) (a : Answer) {t : State}
    (h : t.InRange) : (answer r report tag a t).InRange := by
  refine h.of_same (fun j => ?_) (by rw [answer_onlyRings r report tag a t])
  rw [answer_session]
  exact h.1 j

theorem cascadeDropRings_inRange (rings : List JobRingId) {t : State} (h : t.InRange) :
    (cascadeDropRings rings t).InRange := by
  induction rings generalizing t with
  | nil => exact h
  | cons j rest ih =>
    refine ih ⟨h.1, fun f hf => ?_⟩
    simp only [cascadeDropRing, forgetJobRing, State.setJobRing_fetches, List.mem_map] at hf
    obtain ⟨g, hg, rfl⟩ := hf
    have few := h.2 g hg
    split <;> exact few

theorem closeAllQuietly_inRange (l : List SessionId) {t : State} (h : t.InRange) : (closeAllQuietly l t).InRange := by
  induction l generalizing t with
  | nil => exact h
  | cons k rest ih => exact ih (closeSession_inRange effects_dropWaits k h)

theorem cascade_inRange (q : ReportRingId) (tag : BitVec 16) {t : State} (h : t.InRange) : (cascade q tag t).InRange :=
  answer_inRange _ _ _ _ (closeAllQuietly_inRange _ (cascadeDropRings_inRange _ h) :
    (forgetReportRing q (closeAllQuietly _ _)).InRange)

theorem dropUnused_inRange (q : ReportRingId) (tag : BitVec 16) {t : State} (h : t.InRange) :
    (dropUnused q tag t).InRange := answer_inRange _ _ _ _ (h : (forgetReportRing q t).InRange)

theorem JobResult.inRange {guard : Prop} {r : JobRingId} {t u : State} (result : JobResult guard r t u)
    (h : t.InRange) : u.InRange := by
  cases result with
  | answered w a done => exact answer_inRange _ _ _ _ (done.inRange h)
  | fetching k w n mode live few =>
    refine ⟨h.1, fun f hf => ?_⟩
    simp only [beginFetch, List.mem_append, List.mem_singleton] at hf
    rcases hf with hf | rfl
    · exact h.2 f hf
    · exact few
  | waiting k w cond id live owner room isFree =>
    refine h.of_same (fun j => ?_) rfl
    rw [takeWait, State.session_updSession]
    split <;> exact h.1 _
  | cascaded q tag control work broken => exact cascade_inRange q tag h
  | unused q tag control work isOpen noUser => exact dropUnused_inRange q tag h
  | dropping q tag control work isOpen noUser => exact h

/-- The fetch leaves the list and its ring's stall ends. -/
theorem endFetch_inRange (n : Nat) (f : PointFetch) {t : State} (h : t.InRange) : (endFetch n f t).InRange := by
  have fewer : ({ t with fetches := t.fetches.eraseIdx n } : State).InRange :=
    ⟨h.1, fun g hg => h.2 g (List.mem_of_mem_eraseIdx hg)⟩
  unfold endFetch
  dsimp only
  split <;> exact fewer

theorem fetchDone_inRange (f : PointFetch) (entries : List PointEntry) {t : State} (h : t.InRange)
    (few : entries.length ≤ Config.maxPoints) : (fetchDone f entries t).InRange := by
  unfold fetchDone
  dsimp only
  split
  · exact h
  · split
    · exact answer_inRange _ _ _ _ h
    · split
      · exact answer_inRange _ _ _ _ h
      next points accepted =>
        have staged := effects_updSession (guard := False) t f.session (·.stage points f.mode) (fun h => h.elim)
          (tame_stage _ points f.mode (checkPoints_inRange _ _ _ _ few accepted))
        exact answer_inRange _ _ _ _ (staged.inRange h)

theorem fetchFailed_inRange (f : PointFetch) (entry : Nat) {t : State} (h : t.InRange) :
    (fetchFailed f entry t).InRange := by
  unfold fetchFailed
  split
  · exact h
  · split <;> exact answer_inRange _ _ _ _ h

theorem postRingNotice_inRange (status : Status) (value : Word32) {t : State} (h : t.InRange) :
    (postRingNotice status value t).InRange := by
  unfold postRingNotice
  dsimp only
  split
  · split <;> exact h
  · exact h

theorem loseRecords_inRange (l : List Placed) {t : State} (h : t.InRange) : (loseRecords l t).InRange := by
  induction l generalizing t with
  | nil => exact h
  | cons p rest ih =>
    refine ih ?_
    split
    · exact h
    next k _ =>
      refine h.of_same (fun j => ?_) rfl
      rw [State.session_updSession]
      split
      · obtain ⟨count, wraps, illegal, -, others⟩ := h.1 k
        exact ⟨count, wraps, illegal, satInc_le _, others⟩
      · exact h.1 j

theorem ringBreaks_inRange (q : ReportRingId) {t : State} (h : t.InRange) : (ringBreaks q t).InRange := by
  have lost := loseRecords_inRange (t.reportRing q).unwritten h
  unfold ringBreaks
  dsimp only
  split
  · exact lost
  · exact postRingNotice_inRange _ _ lost

/-- The edges of an instant: the lines accept, and the rest is effects at sessions. -/
theorem acceptLines_frame (lines : BitVec 16) (l : List LineId) (t : State) :
    acceptLines lines l t = { t with lines := (acceptLines lines l t).lines } := by
  induction l generalizing t with
  | nil => rfl
  | cons x rest ih =>
    rw [acceptLines, ih]
    split <;> rfl

theorem qualifiedEdges_inRange (lines : BitVec 16) (order : List Delivery) {t : State} (h : t.InRange) :
    (qualifiedEdges lines order t).InRange := by
  have accepted : (acceptLines lines allLines t).InRange := by
    rw [acceptLines_frame]
    exact h
  exact (effects_handEdges (guard := False) lines order _).inRange accepted

theorem samplePins_inRange (levels : BitVec 16) (order : List Delivery) {t : State} (h : t.InRange) :
    (samplePins levels order t).InRange := by
  have sampled : (sampleLines levels allLines t).InRange := by
    have key (l : List LineId) : ∀ u : State, u.InRange → (sampleLines levels l u).InRange := by
      induction l with
      | nil => exact fun _ hu => hu
      | cons x rest ih => exact fun u hu => ih _ hu
    exact key _ t h
  unfold samplePins
  dsimp only
  split
  · exact sampled
  · exact qualifiedEdges_inRange _ order ((effects_settle _ fun h => h.elim).inRange (guard := False) sampled)

theorem StepResult.inRange {s t : State} (result : StepResult False s t) (h : s.InRange) : t.InRange := by
  have settled : (settle s).InRange := (effects_settle (guard := False) s fun h => h.elim).inRange h
  cases result with
  | events run => exact run.inRange h
  | edges lines order => exact qualifiedEdges_inRange lines order settled
  | sampled levels order =>
    have passed : (periodPasses s).InRange := h.congr (periodPasses_sessions s) (periodPasses_fetches s)
    exact samplePins_inRange levels order passed
  | job r reading result =>
    have arrived (v : State) (hv : v.InRange) :
        ({ v.setJobRing r (v.jobRing r).advance with taking := none } : State).InRange := hv
    exact result.inRange (arrived _ settled)
  | fetchFailed r reading =>
    refine postRingNotice_inRange _ _ (h.congr ?_ ?_)
    · rw [State.updJobRing, State.setJobRing_sessions, returnReservation_sessions]
    · rw [State.updJobRing, State.setJobRing_fetches, (eventFrame_returnReservation _ _).fetches]
  | dropEnded j q tag waits =>
    have settled := (effects_settle (guard := False) { s with taking := none } fun h => h.elim).inRange
      (h : ({ s with taking := none } : State).InRange)
    unfold finishDrop
    split
    · exact cascade_inRange q tag settled
    · exact dropUnused_inRange q tag settled
  | fetched n f entries found whole =>
    exact endFetch_inRange n f (fetchDone_inRange f entries settled (whole ▸ h.2 f (List.mem_of_getElem? found)))
  | fetchBroke n f entry found => exact endFetch_inRange n f (fetchFailed_inRange f entry settled)
  | strayEnded q lands =>
    unfold endStray
    split <;> exact h.congr rfl rfl
  | wrote q p rest oldest =>
    obtain ⟨n, timer, bits, written⟩ := writeDone_eq q p rest s
    exact h.congr (by rw [written]; rfl) (by rw [written]; rfl)
  | broke q underWay => exact ringBreaks_inRange q h
  | posted word =>
    unfold postWrite
    repeat' split
    all_goals exact h.congr rfl rfl
  | released word =>
    unfold releaseWrite
    repeat' split
    all_goals exact h.congr rfl rfl
  | startedUp intEnable sound idle absent =>
    unfold startPart
    split <;> exact h.congr rfl rfl
  | resetRose levels phase =>
    have key (l : List LineId) : ∀ u : State, u.InRange → (firstSamples levels l u).InRange := by
      induction l with
      | nil => exact fun _ hu => hu
      | cons x rest ih => exact fun u hu => ih _ hu
    exact key _ _ (h.congr rfl rfl)
  | engineReset | hardwareReset =>
    refine ⟨fun k => ?_, by simp [engineResets, State.reset]⟩
    have reset : State.reset.session k = {} := by simp [State.session, State.reset]
    exact reset ▸ Session.inRange_default
  | took | batchExpired | registers | ran => exact h.congr rfl rfl

/-- Settles O5: the ranges are kept by every single effect and so by every form of a command's effect. -/
theorem sessionsStayInRange : Obligations.SessionsStayInRange := by
  unfold Obligations.SessionsStayInRange
  intro s t before stepped
  exact step_keeps (P := State.InRange) False (fun _ _ h => h.elim) (fun _ _ h => h) (fun _ _ h form => form.inRange h)
    before stepped

end Sys2Proof.Machine

/-!
PROOFS. Report rings: the drain as the placing of as many parked records as there are free places (R148, R150), the record
of a session at its report ring with its counters (R149, R151, R154), and the soundness of every ring over every step (R143,
R149, R150).
-/

namespace Sys2Proof.Machine

/-! ### Placing and draining (R145, R148, R150) -/

theorem ReportRing.freeSpace_eq (q : ReportRing) : q.freeSpace = q.size - (q.outstanding + q.reservations) :=
  Nat.sub_sub _ _ _

theorem ReportRing.freeSpace_place (q : ReportRing) (rec : ReportRecord) :
    (q.place rec).freeSpace = q.freeSpace - 1 := by
  simp only [ReportRing.freeSpace, ReportRing.place]
  omega

/-- The records of a list placed one after another. -/
def ReportRing.placeAll (q : ReportRing) (l : List ReportRecord) : ReportRing := l.foldl ReportRing.place q

theorem ReportRing.placeAll_cons (q : ReportRing) (rec : ReportRecord) (rest : List ReportRecord) :
    q.placeAll (rec :: rest) = (q.place rec).placeAll rest := rfl

/-- Placing changes the write index, the lap bit, outstanding and the unwritten records only. -/
theorem ReportRing.placeAll_frame (q : ReportRing) (l : List ReportRecord) :
    q.placeAll l =
      { q with writeIndex := (q.placeAll l).writeIndex, lap := (q.placeAll l).lap, outstanding := q.outstanding + l.length
               unwritten := (q.placeAll l).unwritten } := by
  induction l generalizing q with
  | nil => rfl
  | cons rec rest ih =>
    rw [ReportRing.placeAll_cons, ih (q.place rec)]
    simp only [ReportRing.place, List.length_cons, Nat.add_assoc, Nat.add_comm 1]

theorem ReportRing.place_writeIndex_lt (q : ReportRing) (rec : ReportRecord) (inside : q.writeIndex < q.size) :
    (q.place rec).writeIndex < (q.place rec).size := by
  simp only [ReportRing.place]
  split <;> omega

theorem ReportRing.placeAll_writeIndex_lt (q : ReportRing) (l : List ReportRecord) (inside : q.writeIndex < q.size) :
    (q.placeAll l).writeIndex < q.size := by
  induction l generalizing q with
  | nil => exact inside
  | cons rec rest ih => exact ih (q.place rec) (q.place_writeIndex_lt rec inside)

theorem drainList_eq (l : List ReportRecord) (q : ReportRing) :
    drainList l q =
      { q.placeAll (l.take (min l.length q.freeSpace)) with store := l.drop (min l.length q.freeSpace) } := by
  induction l generalizing q with
  | nil => rfl
  | cons rec rest ih =>
    rw [drainList]
    split
    next free =>
      have taken : min (rec :: rest).length q.freeSpace = min rest.length (q.freeSpace - 1) + 1 := by
        simp only [List.length_cons]
        omega
      rw [ih, ReportRing.freeSpace_place, taken]
      rfl
    next full =>
      have none_taken : min (rec :: rest).length q.freeSpace = 0 := by omega
      rw [none_taken]
      rfl

/-- The number of parked records that a drain places. -/
def ReportRing.drainCount (q : ReportRing) : Nat := min q.store.length q.freeSpace

/-- The drain places as many parked records as there are free places, oldest first. -/
theorem ReportRing.drain_eq (q : ReportRing) :
    q.drain = { q.placeAll (q.store.take q.drainCount) with store := q.store.drop q.drainCount } :=
  drainList_eq q.store q

/-- The drain keeps every field but those of placing and the pending store. -/
theorem ReportRing.drain_frame (q : ReportRing) :
    q.drain =
      { q with writeIndex := q.drain.writeIndex, lap := q.drain.lap, outstanding := q.outstanding + q.drainCount
               unwritten := q.drain.unwritten, store := q.store.drop q.drainCount } := by
  have length : (q.store.take q.drainCount).length = q.drainCount := by
    simp only [List.length_take, ReportRing.drainCount]
    omega
  rw [q.drain_eq, q.placeAll_frame (q.store.take q.drainCount), length]

theorem ReportRing.drain_writeIndex_lt (q : ReportRing) (inside : q.writeIndex < q.size) :
    q.drain.writeIndex < q.size := by
  rw [q.drain_eq]
  exact q.placeAll_writeIndex_lt _ inside

/-! ### The record of a session at its report ring (R149, R151, R154) -/

theorem ReportRing.offer_eq_withUnsolicited (q : ReportRing) (rec : ReportRecord) :
    q.offer rec = q.withUnsolicited rec rec.sessionOf := by
  have room : 1 ≤ q.freeSpace ↔ q.outstanding + q.reservations < q.size := by
    rw [q.freeSpace_eq]
    omega
  simp only [ReportRing.offer, ReportRing.withUnsolicited, room]
  rfl

theorem nextRecord_sessionOf (i : SessionId) (kind : UnsolicitedKind) (status : Status) (index value : Nat)
    (flags : RecordFlags) (s : State) : (nextRecord i kind status index value flags s).sessionOf = some i := by
  have small : (BitVec.ofNat 8 i.val).toNat = i.val := by
    have := i.isLt
    simp only [BitVec.toNat_ofNat]
    omega
  simp [ReportRecord.sessionOf, nextRecord, small]

theorem satInc_eq_min (n : Nat) : satInc n = min (n + 1) 65535 := by
  unfold satInc Config.saturation
  split <;> omega

/-- A record of a session, at its report ring and in its own counters. -/
theorem postRecord_eq (i : SessionId) (kind : UnsolicitedKind) (status : Status) (index value : Nat)
    (flags : RecordFlags) (s : State) :
    let e := s.session i
    let rec' := nextRecord i kind status index value flags s
    let u := postRecord i kind status index value flags s
    (∀ q, u.reportRing q = offeredRing i e rec' q (s.reportRing q)) ∧
      (∀ j, u.session j =
        if j = i then { e with seq := e.seq + 1, lost := lostAfterOffer i e rec' s.reportRing } else s.session j) := by
  intro e rec' u
  have offer (q : ReportRingId) : (s.reportRing q).offer rec' = (s.reportRing q).withUnsolicited rec' (some i) := by
    rw [ReportRing.offer_eq_withUnsolicited, nextRecord_sessionOf]
  have dropped (rest : e.reportRing.any (fun id => decide ((s.reportRing id).state = .opened) &&
      ((s.reportRing id).withUnsolicited rec' (some i)).isSome) = false)
      (posted : u = s.setSession i e.droppedRecord) :
      (∀ q, u.reportRing q = offeredRing i e rec' q (s.reportRing q)) ∧
        (∀ j, u.session j =
          if j = i then { e with seq := e.seq + 1, lost := lostAfterOffer i e rec' s.reportRing } else s.session j) := by
    refine ⟨fun q => ?_, fun j => ?_⟩
    · rw [posted, State.reportRing_setSession]
      unfold offeredRing
      split
      next at_q =>
        rw [at_q.1] at rest
        simp only [Option.any_some, at_q.2, decide_true, Bool.true_and, Option.isSome_eq_false_iff,
          Option.isNone_iff_eq_none] at rest
        rw [rest]
        rfl
      next => rfl
    · rw [posted, State.session_setSession]
      simp only [lostAfterOffer, rest, Session.droppedRecord, satInc_eq_min]
      rfl
  have same : sessionRecord i (s.session i) kind status index value flags s.stamp = rec' := rfl
  obtain ring | ⟨r, ring⟩ := Option.eq_none_or_eq_some e.reportRing
  · refine dropped (by simp [ring]) ?_
    simp only [u, postRecord, ring, e]
  · by_cases isOpen : (s.reportRing r).state = .opened
    · obtain placed | ⟨x, placed⟩ := Option.eq_none_or_eq_some ((s.reportRing r).withUnsolicited rec' (some i))
      · refine dropped (by simp [ring, isOpen, placed]) ?_
        simp only [u, postRecord, ring, e, if_pos isOpen, same, offer, placed]
      · have posted : u = (s.setReportRing r x).setSession i e.tookRecord := by
          simp only [u, postRecord, ring, e, if_pos isOpen, same, offer, placed]
        refine ⟨fun q => ?_, fun j => ?_⟩
        · rw [posted, State.reportRing_setSession, State.reportRing_setReportRing]
          by_cases hq : q = r
          · subst hq
            simp [offeredRing, ring, isOpen, placed]
          · have other : r ≠ q := Ne.symm hq
            simp [offeredRing, ring, hq, other]
        · rw [posted, State.session_setSession]
          have taken : lostAfterOffer i e rec' s.reportRing = 0 := by simp [lostAfterOffer, ring, isOpen, placed]
          rw [taken]
          rfl
    · refine dropped (by simp [ring, isOpen]) ?_
      simp only [u, postRecord, ring, e, if_neg isOpen]

/-! ### Sound rings (R143, R149, R150) -/

/-- A ring that places a JOB record parks no record while it has free space. -/
theorem ReportRing.Sound.withJob {q : ReportRing} (sound : q.Sound) (isOpen : q.state = .opened) (rec : ReportRecord) :
    (q.withJob rec).Sound ∧ (q.withJob rec).state = .opened := by
  obtain ⟨few, full, -, inside⟩ := sound
  obtain ⟨write, release⟩ := inside (by simp [isOpen])
  refine ⟨⟨few, fun _ parked => ?_, fun absent => ?_, fun _ => ⟨?_, release⟩⟩, isOpen⟩
  · have := full isOpen parked
    simp only [ReportRing.freeSpace, ReportRing.withJob] at this ⊢
    omega
  · simp [ReportRing.withJob, isOpen] at absent
  · simp only [ReportRing.withJob]
    split <;> omega

theorem ReportRing.Sound.handed {q : ReportRing} (sound : q.Sound) (recs : List (ReportRingId × ReportRecord))
    (id : ReportRingId) : (handedRing recs id q).Sound := by
  unfold handedRing
  split
  next isOpen =>
    have key (l : List ReportRecord) : ∀ x : ReportRing, x.Sound → x.state = .opened →
        (l.foldl ReportRing.withJob x).Sound := by
      induction l with
      | nil => exact fun _ h _ => h
      | cons rec rest ih => exact fun x h g => ih _ (h.withJob g rec).1 (h.withJob g rec).2
    exact key _ q sound isOpen
  next => exact sound

/-- A record is parked only while there is no free space. -/
theorem ReportRing.Sound.withUnsolicited {q x : ReportRing} (sound : q.Sound) (isOpen : q.state = .opened)
    (rec : ReportRecord) (owner : Option SessionId) (taken : q.withUnsolicited rec owner = some x) :
    x.Sound ∧ x.state = .opened := by
  obtain ⟨few, full, -, inside⟩ := sound
  obtain ⟨write, release⟩ := inside (by simp [isOpen])
  unfold ReportRing.withUnsolicited at taken
  split at taken
  next free =>
    cases taken
    refine ⟨⟨by simp [free.1], fun _ parked => absurd free.1 parked, fun absent => ?_, fun _ => ⟨?_, release⟩⟩, isOpen⟩
    · exact absurd absent (by simp [isOpen])
    · simp only
      split <;> omega
  next notFree =>
    split at taken
    next room =>
      cases taken
      refine ⟨⟨by simp [Config.maxStore]; omega, fun _ _ => ?_, fun absent => ?_, fun _ => ⟨write, release⟩⟩, isOpen⟩
      · by_cases parked : q.store = []
        · have : ¬q.outstanding + q.reservations < q.size := fun h => notFree ⟨parked, h⟩
          simp only [ReportRing.freeSpace]
          omega
        · exact full isOpen parked
      · exact absurd absent (by simp [isOpen])
    next => cases taken

theorem ReportRing.Sound.offered {q : ReportRing} (sound : q.Sound) (i : SessionId) (e : Session) (rec : ReportRecord)
    (id : ReportRingId) : (offeredRing i e rec id q).Sound := by
  unfold offeredRing
  split
  next at_q =>
    cases taken : q.withUnsolicited rec (some i) with
    | none => exact sound
    | some x => exact (sound.withUnsolicited at_q.2 rec _ taken).1
  next => exact sound

/-- After a drain no record is parked while there is free space. -/
theorem ReportRing.sound_drain (q : ReportRing) (few : q.store.length ≤ Config.maxStore) (present : q.state ≠ .absent)
    (write : q.writeIndex < q.size) (release : q.releaseIndex < q.size) : q.drain.Sound := by
  have inside := q.drain_writeIndex_lt write
  rw [q.drain_frame]
  refine ⟨?_, fun _ parked => ?_, fun absent => absurd absent present, fun _ => ⟨inside, release⟩⟩
  · simp only [List.length_drop]
    omega
  · have left : q.drainCount < q.store.length := by
      by_contra none_left
      exact parked (List.drop_eq_nil_of_le (by omega))
    simp only [ReportRing.drainCount, ReportRing.freeSpace] at left ⊢
    omega

theorem ReportRing.Sound.returned {q : ReportRing} (sound : q.Sound) (present : q.state ≠ .absent) (n : Nat) :
    (ReportRing.drain { q with reservations := n }).Sound := by
  obtain ⟨few, -, -, inside⟩ := sound
  exact ReportRing.sound_drain _ few present (inside present).1 (inside present).2

theorem ReportRing.sound_default : ReportRing.Sound {} := by
  refine ⟨Nat.zero_le _, fun opened => ?_, fun _ => rfl, fun present => ?_⟩
  · cases opened
  · exact absurd rfl present

/-- Fields that soundness is not about. -/
theorem ReportRing.Sound.of_eq {q x : ReportRing} (sound : q.Sound) (present : q.state ≠ .absent)
    (state : x.state = q.state) (size : x.size = q.size) (write : x.writeIndex = q.writeIndex)
    (release : x.releaseIndex = q.releaseIndex) (outstanding : x.outstanding = q.outstanding)
    (reservations : q.reservations ≤ x.reservations) (store : x.store.Sublist q.store) : x.Sound := by
  obtain ⟨few, full, -, inside⟩ := sound
  refine ⟨store.length_le.trans few, fun isOpen parked => ?_, fun absent => ?_, fun _ => ?_⟩
  · have parked' : q.store ≠ [] := fun none_parked => parked (by simpa [none_parked] using store)
    have := full (state ▸ isOpen) parked'
    simp only [ReportRing.freeSpace, size, outstanding] at this ⊢
    omega
  · exact absurd (state ▸ absent) present
  · rw [write, release, size]
    exact inside present

/-- A ring that holds a record, runs a timer or has settings is not ABSENT. -/
theorem ReportRing.Sound.present {q : ReportRing} (sound : q.Sound) (used : q ≠ {}) : q.state ≠ .absent :=
  fun absent => used (sound.2.2.1 absent)

/-! ### Sound rings over every step -/

theorem State.RingsSound.congr {s t : State} (h : s.RingsSound) (rings : t.reportRings = s.reportRings) :
    t.RingsSound := fun q => State.reportRing_congr s t rings q ▸ h q

theorem State.RingsSound.setReportRing {s : State} (h : s.RingsSound) (q : ReportRingId) {x : ReportRing}
    (sound : x.Sound) : (s.setReportRing q x).RingsSound := by
  intro i
  rw [State.reportRing_setReportRing]
  split
  · exact sound
  · exact h i

theorem returnReservation_ringsSound (q : ReportRingId) {s : State} (h : s.RingsSound) :
    (returnReservation q s).RingsSound := by
  intro i
  rw [returnReservation_reportRing]
  split
  next own => exact (h q).returned (by simp [own.2]) _
  next => exact h i

theorem Effect.ringsSound {guard : Prop} {s t : State} (effect : Effect guard s t) (h : s.RingsSound) :
    t.RingsSound := by
  intro q
  cases effect with
  | post i kind status index value flags live =>
    rw [(postRecord_eq i kind status index value flags s).1]
    exact (h q).offered _ _ _ _
  | complete w status stamp =>
    cases found : s.wait w with
    | none => simpa [completeWaitAt, found] using h q
    | some e =>
      rw [completeWaitAt_reportRing w status stamp s e found]
      exact (h q).handed _ _
  | discard w =>
    cases found : s.wait w with
    | none => simpa [discardWait, found] using h q
    | some e =>
      have freed : (freeWait w s).RingsSound := fun i => (freeWait_reportRing w s i).symm ▸ h i
      simp only [discardWait, found]
      exact returnReservation_ringsSound _ freed q
  | entry | marks | taken | lower | output => exact h q

theorem Effects.ringsSound {guard : Prop} {s t : State} (run : Effects guard s t) (h : s.RingsSound) : t.RingsSound :=
  run.keep (fun _ _ effect => effect.ringsSound) h

theorem answer_ringsSound (r : JobRingId) (report : ReportRingId) (tag : BitVec 16) (a : Answer) {t : State}
    (h : t.RingsSound) : (answer r report tag a t).RingsSound := by
  intro q
  rw [answer_reportRing]
  exact (h q).handed _ _

theorem ReportRing.Sound.purge {q : ReportRing} (sound : q.Sound) (k : SessionId) : (q.purge k).Sound := by
  by_cases absent : q.state = .absent
  · rw [sound.2.2.1 absent]
    exact ReportRing.sound_default
  · exact sound.of_eq absent rfl rfl rfl rfl rfl le_rfl List.filter_sublist

theorem purgeSession_ringsSound (k : SessionId) {s : State} (h : s.RingsSound) : (purgeSession k s).RingsSound := by
  unfold purgeSession
  split
  · exact h
  next q _ => exact h.setReportRing q ((h q).purge k)

theorem closeSession_ringsSound {endWaits : SessionId → State → State} (ends : ∀ k s, Effects False s (endWaits k s))
    (k : SessionId) {s : State} (h : s.RingsSound) : (closeSession endWaits k s).RingsSound := by
  have before := (effects_beforeFreed ends k s).ringsSound h
  have left : (releaseOutputs k (voidFetches k (beforeFreed endWaits k s))).RingsSound := before
  exact purgeSession_ringsSound k left

theorem ReportRing.sound_made (base size : Nat) (mode : NotifyMode) (room : 2 ≤ size) :
    (madeReportRing base size mode).Sound := by
  refine ⟨Nat.zero_le _, fun _ parked => absurd rfl parked, fun absent => ?_, fun _ => ⟨?_, ?_⟩⟩
  · cases absent
  all_goals
    simp only [madeReportRing]
    omega

theorem JobDone.ringsSound {guard : Prop} {r : JobRingId} {t u : State} (done : JobDone guard r t u)
    (h : t.RingsSound) : u.RingsSound := by
  cases done with
  | effects run => exact run.ringsSound h
  | opened k w setup isFree asked passes => exact h.congr (by rw [configure_frame])
  | closed k live => exact closeSession_ringsSound effects_closeWaits k h
  | reportRingMade q base size mode absent room => exact h.setReportRing q (ReportRing.sound_made base size mode room)
  | tuned q mode present => exact h.setReportRing q ((h q).of_eq present rfl rfl rfl rfl rfl le_rfl (.refl _))
  | lineSet l inverted width wide narrow =>
    have set : (t.setLine l { t.line l with inverted, width }).RingsSound := h
    exact (setUpLine_effects (guard := False) l inverted width t).ringsSound set
  | jobRingMade | jobRingDropped | jobRingRestarted => exact h

theorem cascade_ringsSound (q : ReportRingId) (tag : BitVec 16) {t : State} (h : t.RingsSound) :
    (cascade q tag t).RingsSound := by
  have dropped (rings : List JobRingId) : ∀ u : State, u.RingsSound → (cascadeDropRings rings u).RingsSound := by
    induction rings with
    | nil => exact fun _ hu => hu
    | cons j rest ih => exact fun u hu => ih _ hu
  have closed (l : List SessionId) : ∀ u : State, u.RingsSound → (closeAllQuietly l u).RingsSound := by
    induction l with
    | nil => exact fun _ hu => hu
    | cons k rest ih => exact fun u hu => ih _ (closeSession_ringsSound effects_dropWaits k hu)
  exact answer_ringsSound _ _ _ _ ((closed _ _ (dropped _ t h)).setReportRing q ReportRing.sound_default)

theorem dropUnused_ringsSound (q : ReportRingId) (tag : BitVec 16) {t : State} (h : t.RingsSound) :
    (dropUnused q tag t).RingsSound :=
  answer_ringsSound _ _ _ _ (h.setReportRing q ReportRing.sound_default)

theorem JobResult.ringsSound {guard : Prop} {r : JobRingId} {t u : State} (result : JobResult guard r t u)
    (h : t.RingsSound) : u.RingsSound := by
  cases result with
  | answered w a done => exact answer_ringsSound _ _ _ _ (done.ringsSound h)
  | cascaded q tag control work broken => exact cascade_ringsSound q tag h
  | unused q tag control work isOpen noUser => exact dropUnused_ringsSound q tag h
  | fetching | waiting | dropping => exact h

theorem endFetch_ringsSound (n : Nat) (f : PointFetch) {t : State} (h : t.RingsSound) :
    (endFetch n f t).RingsSound := by
  unfold endFetch
  dsimp only
  split <;> exact h

theorem fetchDone_ringsSound (f : PointFetch) (entries : List PointEntry) {t : State} (h : t.RingsSound) :
    (fetchDone f entries t).RingsSound := by
  unfold fetchDone
  dsimp only
  split
  · exact h
  · split
    · exact answer_ringsSound _ _ _ _ h
    · split
      · exact answer_ringsSound _ _ _ _ h
      · exact answer_ringsSound _ _ _ _ (h : (t.updSession f.session _).RingsSound)

theorem fetchFailed_ringsSound (f : PointFetch) (entry : Nat) {t : State} (h : t.RingsSound) :
    (fetchFailed f entry t).RingsSound := by
  unfold fetchFailed
  split
  · exact h
  · split <;> exact answer_ringsSound _ _ _ _ h

theorem postRingNotice_ringsSound (status : Status) (value : Word32) {t : State} (h : t.RingsSound) :
    (postRingNotice status value t).RingsSound := by
  unfold postRingNotice
  dsimp only
  split
  next isOpen =>
    split
    next ring offered =>
      rw [ReportRing.offer_eq_withUnsolicited] at offered
      exact h.setReportRing 0 ((h 0).withUnsolicited isOpen _ _ offered).1
    next => exact h
  next => exact h

theorem loseRecords_frame (l : List Placed) (t : State) :
    loseRecords l t = { t with sessions := (loseRecords l t).sessions } := by
  induction l generalizing t with
  | nil => rfl
  | cons p rest ih =>
    rw [loseRecords, ih]
    split <;> rfl

theorem ringBreaks_ringsSound (q : ReportRingId) {t : State} (h : t.RingsSound)
    (underWay : (t.reportRing q).unwritten ≠ []) : (ringBreaks q t).RingsSound := by
  have present := (h q).present fun absent => underWay (by rw [absent])
  have lost : (loseRecords (t.reportRing q).unwritten t).RingsSound := h.congr (by rw [loseRecords_frame])
  have same : (loseRecords (t.reportRing q).unwritten t).reportRing q = t.reportRing q :=
    State.reportRing_congr _ _ (by rw [loseRecords_frame]) q
  have inside := (h q).2.2.2 present
  have broken : (t.reportRing q).broke.Sound :=
    ⟨Nat.zero_le _, fun _ parked => absurd rfl parked, fun absent => (by cases absent), fun _ => inside⟩
  have broke : ((loseRecords (t.reportRing q).unwritten t).updReportRing q ReportRing.broke).RingsSound :=
    lost.setReportRing q (by rw [same]; exact broken)
  unfold ringBreaks
  dsimp only
  split
  · exact broke
  · exact postRingNotice_ringsSound _ _ broke

theorem releaseWrite_ringsSound (word : Word32) {t : State} (h : t.RingsSound) : (releaseWrite word t).RingsSound := by
  unfold releaseWrite
  split
  · exact h
  next q _ =>
    split
    next accepts =>
      simp only [ReportRing.acceptsRelease, Bool.and_eq_true, decide_eq_true_eq] at accepts
      obtain ⟨⟨present, inRing⟩, -⟩ := accepts
      obtain ⟨few, full, -, inside⟩ := h q
      refine h.setReportRing q ?_
      unfold ReportRing.released
      dsimp only
      split
      · exact ReportRing.sound_drain _ few present (inside present).1 inRing
      next notOpen =>
        exact ⟨few, fun isOpen => absurd isOpen notOpen, fun absent => absurd absent present,
          fun _ => ⟨(inside present).1, inRing⟩⟩
    next => exact h

theorem periodPasses_reportRing (s : State) (q : ReportRingId) :
    (periodPasses s).reportRing q = { s.reportRing q with batchTimer := timerPassed (s.reportRing q).batchTimer } := by
  simp only [periodPasses, State.reportRing, Fin.getElem_fin, Vector.getElem_map]

theorem periodPasses_ringsSound {s : State} (h : s.RingsSound) : (periodPasses s).RingsSound := by
  intro q
  rw [periodPasses_reportRing]
  by_cases absent : (s.reportRing q).state = .absent
  · rw [(h q).2.2.1 absent]
    exact ReportRing.sound_default
  · exact (h q).of_eq absent rfl rfl rfl rfl rfl le_rfl (.refl _)

theorem qualifiedEdges_ringsSound (lines : BitVec 16) (order : List Delivery) {t : State} (h : t.RingsSound) :
    (qualifiedEdges lines order t).RingsSound := by
  have accepted : (acceptLines lines allLines t).RingsSound := h.congr (by rw [acceptLines_frame])
  exact (effects_handEdges (guard := False) lines order _).ringsSound accepted

theorem samplePins_ringsSound (levels : BitVec 16) (order : List Delivery) {t : State} (h : t.RingsSound) :
    (samplePins levels order t).RingsSound := by
  have sampled : (sampleLines levels allLines t).RingsSound := by
    have key (l : List LineId) : ∀ u : State, u.RingsSound → (sampleLines levels l u).RingsSound := by
      induction l with
      | nil => exact fun _ hu => hu
      | cons x rest ih => exact fun u hu => ih _ hu
    exact key _ t h
  unfold samplePins
  dsimp only
  split
  · exact sampled
  · exact qualifiedEdges_ringsSound _ order ((effects_settle _ fun h => h.elim).ringsSound (guard := False) sampled)

/-- An eligible ring is RUNNING without a fetch, and its bound report ring is OPEN with a place. -/
theorem eligible_place (s : State) (r : JobRingId) (eligible : s.eligible r = true) :
    (s.jobRing r).state = .running ∧ (s.jobRing r).fetchInFlight = false ∧
      (s.reportRing (s.jobRing r).bound).state = .opened ∧ 1 ≤ (s.reportRing (s.jobRing r).bound).freeSpace := by
  simp only [State.eligible, ReportRing.hasPlace, Bool.and_eq_true, decide_eq_true_eq, Bool.not_eq_true'] at eligible
  obtain ⟨⟨⟨⟨_, running⟩, _⟩, noFetch⟩, isOpen, place⟩ := eligible
  exact ⟨running, noFetch, isOpen, place⟩

/-- The arbiter chooses an eligible ring and gives the turn to a work ring or leaves it. -/
theorem choose_eligible (s : State) (c : Choice) (chosen : s.choose = some c) :
    s.eligible c.ring = true ∧ (c.turn = s.turn ∨ c.turn ≠ 0) := by
  unfold State.choose at chosen
  split at chosen
  next control => cases chosen; exact ⟨control, .inl rfl⟩
  · split at chosen
    next holder => cases chosen; exact ⟨holder.2.1, .inl rfl⟩
    · split at chosen
      · cases chosen
      next r found =>
        cases chosen
        refine ⟨List.find?_some found, .inr ?_⟩
        have member := List.mem_of_find?_eq_some found
        simp only [rotation, List.mem_map] at member
        obtain ⟨k, -, rfl⟩ := member
        simp [Fin.ext_iff]

theorem beginTake_ringsSound (c : Choice) {s : State} (h : s.RingsSound)
    (isOpen : (s.reportRing (s.jobRing c.ring).bound).state = .opened) : (beginTake c s).RingsSound :=
  h.setReportRing _ ((h _).of_eq (by simp [isOpen]) rfl rfl rfl rfl rfl (Nat.le_succ _) (.refl _))

theorem StepResult.ringsSound {s t : State} (result : StepResult False s t) (h : s.RingsSound) : t.RingsSound := by
  have settled : (settle s).RingsSound := (effects_settle (guard := False) s fun h => h.elim).ringsSound h
  cases result with
  | events run => exact run.ringsSound h
  | edges lines order => exact qualifiedEdges_ringsSound lines order settled
  | sampled levels order => exact samplePins_ringsSound levels order (periodPasses_ringsSound h)
  | took c idle chosen => exact beginTake_ringsSound c h (eligible_place s _ (choose_eligible s c chosen).1).2.2.1
  | job r reading result =>
    have arrived (v : State) (hv : v.RingsSound) :
        ({ v.setJobRing r (v.jobRing r).advance with taking := none } : State).RingsSound := hv
    exact result.ringsSound (arrived _ settled)
  | fetchFailed r reading =>
    have ended : ({ s with taking := none } : State).RingsSound := h
    have returned := returnReservation_ringsSound (s.jobRing r).bound ended
    exact postRingNotice_ringsSound _ _ (returned.congr (t := State.updJobRing _ r _) rfl)
  | dropEnded j q tag waits =>
    have settled := (effects_settle (guard := False) { s with taking := none } fun h => h.elim).ringsSound
      (h : ({ s with taking := none } : State).RingsSound)
    unfold finishDrop
    split
    · exact cascade_ringsSound q tag settled
    · exact dropUnused_ringsSound q tag settled
  | fetched n f entries found whole => exact endFetch_ringsSound n f (fetchDone_ringsSound f entries settled)
  | fetchBroke n f entry found => exact endFetch_ringsSound n f (fetchFailed_ringsSound f entry settled)
  | batchExpired q expired =>
    have present := (h q).present fun absent => by simp [absent] at expired
    exact h.setReportRing q ((h q).of_eq present rfl rfl rfl rfl rfl le_rfl (.refl _))
  | strayEnded q lands =>
    unfold endStray
    split <;> exact h.congr rfl
  | wrote q p rest oldest =>
    have present := (h q).present fun absent => by simp [absent] at oldest
    obtain ⟨n, timer, bits, written⟩ := writeDone_eq q p rest s
    have sound : (s.setReportRing q { s.reportRing q with unwritten := rest, unnotified := n, batchTimer := timer }).RingsSound :=
      h.setReportRing q ((h q).of_eq present rfl rfl rfl rfl rfl le_rfl (.refl _))
    exact sound.congr (by rw [written])
  | broke q underWay => exact ringBreaks_ringsSound q h underWay
  | posted word =>
    unfold postWrite
    repeat' split
    all_goals exact h.congr rfl
  | released word => exact releaseWrite_ringsSound word h
  | startedUp intEnable sound idle absent =>
    unfold startPart
    split
    next passes =>
      have room : 2 ≤ s.crRr0Size.toNat := by
        simp only [State.regionOk, Bool.and_eq_true, decide_eq_true_eq] at passes
        exact passes.1.1.1.2
      exact (h.setReportRing 0 (ReportRing.sound_made s.rr0Base _ .each room)).congr rfl
    next => exact h.congr rfl
  | resetRose levels phase =>
    have key (l : List LineId) : ∀ u : State, u.RingsSound → (firstSamples levels l u).RingsSound := by
      induction l with
      | nil => exact fun _ hu => hu
      | cons x rest ih => exact fun u hu => ih _ hu
    exact key _ _ (h.congr rfl)
  | engineReset | hardwareReset =>
    intro q
    have reset : State.reset.reportRing q = {} := by simp [State.reportRing, State.reset]
    exact reset ▸ ReportRing.sound_default
  | registers | ran => exact h.congr rfl

/-- Settles O6: every form of a command's effect leaves every ring sound. -/
theorem parkedRecordsMeanFullRing : Obligations.ParkedRecordsMeanFullRing := by
  unfold Obligations.ParkedRecordsMeanFullRing
  intro s t before stepped
  exact step_keeps (P := State.RingsSound) False (fun _ _ h => h.elim) (fun _ _ h => h)
    (fun _ _ h form => form.ringsSound h) before stepped

end Sys2Proof.Machine

/-!
PROOFS. The device-wide fields and the bytes written to host memory over every step (R113, R129, R173; log 18).
-/

namespace Sys2Proof.Machine

/-! ### What leaves the device-wide fields alone -/

/-- The turn, the cause of FATAL, RUN, the input lines and the written bytes are the same. -/
structure SameDevice (s t : State) : Prop where
  turn : t.turn = s.turn
  fatalCause : t.fatalCause = s.fatalCause
  run : t.run = s.run
  lines : t.lines = s.lines
  hostMemory : t.hostMemory = s.hostMemory

theorem SameDevice.refl (s : State) : SameDevice s s := ⟨rfl, rfl, rfl, rfl, rfl⟩

theorem SameDevice.trans {s t u : State} (h : SameDevice s t) (g : SameDevice t u) : SameDevice s u :=
  ⟨g.turn.trans h.turn, g.fatalCause.trans h.fatalCause, g.run.trans h.run, g.lines.trans h.lines,
    g.hostMemory.trans h.hostMemory⟩

theorem EventFrame.sameDevice {s t : State} (h : EventFrame s t) : SameDevice s t :=
  ⟨h.turn, h.fatalCause, h.run, h.lines, h.hostMemory⟩

theorem answer_sameDevice (r : JobRingId) (report : ReportRingId) (tag : BitVec 16) (a : Answer) (t : State) :
    SameDevice t (answer r report tag a t) := by
  have rings := answer_onlyRings r report tag a t
  constructor <;> rw [rings]

/-- A close reaches session entries, wait entries, output lines, fetches and report rings. -/
def CloseFrame (s t : State) : Prop :=
  t = { s with sessions := t.sessions, waits := t.waits, outputs := t.outputs, fetches := t.fetches,
               reportRings := t.reportRings }

theorem CloseFrame.refl (s : State) : CloseFrame s s := rfl

theorem CloseFrame.trans {s t u : State} (h : CloseFrame s t) (g : CloseFrame t u) : CloseFrame s u := by
  unfold CloseFrame at *
  rw [g, h]

theorem EventFrame.closeFrame {s t : State} (h : EventFrame s t) : CloseFrame s t := by
  unfold CloseFrame
  rw [h]

theorem CloseFrame.sameDevice {s t : State} (h : CloseFrame s t) : SameDevice s t := by
  constructor <;> rw [h]

theorem closeSession_frame {endWaits : SessionId → State → State} (ends : ∀ k s, Effects False s (endWaits k s))
    (k : SessionId) (s : State) : CloseFrame s (closeSession endWaits k s) := by
  have purged (t : State) : CloseFrame t (purgeSession k t) := by
    unfold purgeSession
    split <;> rfl
  have left (t : State) : CloseFrame t ((purgeSession k (releaseOutputs k (voidFetches k t))).setSession k {}) :=
    have outputs : CloseFrame t (releaseOutputs k (voidFetches k t)) := rfl
    (outputs.trans (purged _)).trans (eventFrame_setSession _ k {}).closeFrame
  exact (effects_beforeFreed ends k s).frame.closeFrame.trans (left _)

theorem closeAllQuietly_frame (l : List SessionId) (s : State) : CloseFrame s (closeAllQuietly l s) := by
  induction l generalizing s with
  | nil => rfl
  | cons k rest ih => exact (closeSession_frame effects_dropWaits k s).trans (ih _)

/-- The cascade drops job rings and orphans their fetches. -/
theorem cascadeDropRings_frame (rings : List JobRingId) (s : State) :
    cascadeDropRings rings s =
      { s with jobRings := (cascadeDropRings rings s).jobRings, fetches := (cascadeDropRings rings s).fetches } := by
  induction rings generalizing s with
  | nil => rfl
  | cons j rest ih =>
    rw [cascadeDropRings, ih]
    rfl

theorem cascade_sameDevice (q : ReportRingId) (tag : BitVec 16) (t : State) : SameDevice t (cascade q tag t) := by
  have dropped (rings : List JobRingId) : SameDevice t (cascadeDropRings rings t) := by
    constructor <;> rw [cascadeDropRings_frame]
  have closed (l : List SessionId) (u : State) : SameDevice u (closeAllQuietly l u) :=
    (closeAllQuietly_frame l u).sameDevice
  have forgot (u : State) : SameDevice u (forgetReportRing q u) := (eventFrame_setReportRing u q {}).sameDevice
  exact (((dropped _).trans (closed _ _)).trans (forgot _)).trans (answer_sameDevice _ _ _ _ _)

theorem dropUnused_sameDevice (q : ReportRingId) (tag : BitVec 16) (t : State) : SameDevice t (dropUnused q tag t) :=
  (eventFrame_setReportRing t q {}).sameDevice.trans (answer_sameDevice _ _ _ _ _)

theorem postRingNotice_sameDevice (status : Status) (value : Word32) (t : State) :
    SameDevice t (postRingNotice status value t) := by
  unfold postRingNotice
  dsimp only
  repeat' split
  all_goals exact ⟨rfl, rfl, rfl, rfl, rfl⟩

theorem endFetch_sameDevice (n : Nat) (f : PointFetch) (t : State) : SameDevice t (endFetch n f t) := by
  unfold endFetch
  dsimp only
  split <;> exact ⟨rfl, rfl, rfl, rfl, rfl⟩

theorem fetchDone_sameDevice (f : PointFetch) (entries : List PointEntry) (t : State) :
    SameDevice t (fetchDone f entries t) := by
  unfold fetchDone
  dsimp only
  repeat' split
  · exact .refl t
  · exact answer_sameDevice _ _ _ _ _
  · exact answer_sameDevice _ _ _ _ _
  · exact (eventFrame_updSession t _ _).sameDevice.trans (answer_sameDevice _ _ _ _ _)

theorem fetchFailed_sameDevice (f : PointFetch) (entry : Nat) (t : State) : SameDevice t (fetchFailed f entry t) := by
  unfold fetchFailed
  repeat' split
  · exact .refl t
  · exact answer_sameDevice _ _ _ _ _
  · exact answer_sameDevice _ _ _ _ _

/-! ### Sound devices -/

/-- The two invariants together: the device-wide fields and the canonical list of written bytes. -/
def DeviceKept (s t : State) : Prop :=
  (s.DeviceSound → t.DeviceSound) ∧ (s.hostMemory.wf = true → t.hostMemory.wf = true)

theorem DeviceKept.trans {s t u : State} (h : DeviceKept s t) (g : DeviceKept t u) : DeviceKept s u :=
  ⟨g.1 ∘ h.1, g.2 ∘ h.2⟩

theorem SameDevice.kept {s t : State} (h : SameDevice s t) : DeviceKept s t := by
  refine ⟨fun ⟨turn, fatal, lines⟩ => ⟨h.turn ▸ turn, fun config => ?_, fun l => ?_⟩, fun wf => h.hostMemory ▸ wf⟩
  · rw [h.run]
    exact fatal (h.fatalCause ▸ config)
  · rw [State.line_congr s t h.lines]
    exact lines l

/-- A line set to an entry in range. -/
theorem setLine_kept (s : State) (l : LineId) (x : InputLine)
    (good : s.DeviceSound → 2 ≤ x.width ∧ x.width ≤ 255 ∧ x.runCount ≤ 254) : DeviceKept s (s.setLine l x) := by
  refine ⟨fun sound => ⟨sound.1, sound.2.1, fun m => ?_⟩, id⟩
  rw [State.line_setLine]
  split
  · exact good sound
  · exact sound.2.2 m

theorem acceptLines_kept (lines : BitVec 16) (l : List LineId) (s : State) : DeviceKept s (acceptLines lines l s) := by
  induction l generalizing s with
  | nil => exact ⟨id, id⟩
  | cons x rest ih =>
    refine DeviceKept.trans ?_ (ih _)
    split
    · exact setLine_kept s x _ fun sound => ⟨(sound.2.2 x).1, (sound.2.2 x).2.1, Nat.zero_le _⟩
    · exact ⟨id, id⟩

theorem sampleLines_kept (levels : BitVec 16) (l : List LineId) (s : State) :
    DeviceKept s (sampleLines levels l s) := by
  induction l generalizing s with
  | nil => exact ⟨id, id⟩
  | cons x rest ih =>
    refine DeviceKept.trans (setLine_kept s x _ fun sound => ?_) (ih _)
    obtain ⟨wide, narrow, few⟩ := sound.2.2 x
    unfold InputLine.sampled InputLine.nearlyComplete
    split
    · exact ⟨wide, narrow, Nat.zero_le _⟩
    · split
      · exact ⟨wide, narrow, few⟩
      next going =>
        have : ¬(s.line x).width ≤ (s.line x).runCount + 1 := by simpa using going
        exact ⟨wide, narrow, by simp only; omega⟩

theorem firstSamples_kept (levels : BitVec 16) (l : List LineId) (s : State) :
    DeviceKept s (firstSamples levels l s) := by
  induction l generalizing s with
  | nil => exact ⟨id, id⟩
  | cons x rest ih =>
    refine DeviceKept.trans (setLine_kept s x _ fun sound => ?_) (ih _)
    exact ⟨(sound.2.2 x).1, (sound.2.2 x).2.1, Nat.zero_le _⟩

theorem qualifiedEdges_kept (lines : BitVec 16) (order : List Delivery) (s : State) :
    DeviceKept s (qualifiedEdges lines order s) :=
  (acceptLines_kept lines allLines s).trans (eventFrame_handEdges lines order _).sameDevice.kept

theorem JobDone.deviceKept {guard : Prop} {r : JobRingId} {t u : State} (done : JobDone guard r t u) :
    DeviceKept t u := by
  cases done with
  | effects run => exact run.frame.sameDevice.kept
  | opened k w setup isFree asked passes =>
    have same : SameDevice t (configure r k w setup t) := by constructor <;> rw [configure_frame]
    exact same.kept
  | closed k live => exact (closeSession_frame effects_closeWaits k t).sameDevice.kept
  | lineSet l inverted width wide narrow =>
    exact (setLine_kept t l { t.line l with inverted, width } fun sound => ⟨wide, narrow, (sound.2.2 l).2.2⟩).trans
      (setUpLine_effects (guard := False) l inverted width t).frame.sameDevice.kept
  | jobRingMade | jobRingDropped | jobRingRestarted | reportRingMade | tuned =>
    exact SameDevice.kept ⟨rfl, rfl, rfl, rfl, rfl⟩

theorem JobResult.deviceKept {guard : Prop} {r : JobRingId} {t u : State} (result : JobResult guard r t u) :
    DeviceKept t u := by
  cases result with
  | answered w a done => exact done.deviceKept.trans (answer_sameDevice _ _ _ _ _).kept
  | cascaded q tag control work broken => exact (cascade_sameDevice q tag t).kept
  | unused q tag control work isOpen noUser => exact (dropUnused_sameDevice q tag t).kept
  | fetching | waiting | dropping => exact SameDevice.kept ⟨rfl, rfl, rfl, rfl, rfl⟩

theorem StepResult.deviceKept {guard : Prop} {s t : State} (result : StepResult guard s t) : DeviceKept s t := by
  have settled := (eventFrame_settle s).sameDevice
  cases result with
  | events run => exact run.frame.sameDevice.kept
  | edges lines order => exact settled.kept.trans (qualifiedEdges_kept lines order _)
  | sampled levels order =>
    have passed : SameDevice s (periodPasses s) := by constructor <;> simp only [periodPasses]
    refine passed.kept.trans ?_
    have sampled := sampleLines_kept levels allLines (periodPasses s)
    unfold samplePins
    dsimp only
    split
    · exact sampled
    · exact (sampled.trans (eventFrame_settle _).sameDevice.kept).trans (qualifiedEdges_kept _ order _)
  | took c idle chosen =>
    refine ⟨fun ⟨turn, fatal, lines⟩ => ⟨?_, fatal, lines⟩, id⟩
    rcases (choose_eligible s c chosen).2 with same | work
    · exact fun none_left => turn (same.symm.trans none_left)
    · exact work
  | job r reading result =>
    have arrived (v : State) :
        SameDevice v { v.setJobRing r (v.jobRing r).advance with taking := none } := ⟨rfl, rfl, rfl, rfl, rfl⟩
    exact (settled.trans (arrived _)).kept.trans result.deviceKept
  | fetchFailed r reading =>
    have ended : SameDevice s { s with taking := none } := ⟨rfl, rfl, rfl, rfl, rfl⟩
    have returned := (eventFrame_returnReservation (s.jobRing r).bound { s with taking := none }).sameDevice
    have broken (v : State) : SameDevice v (v.updJobRing r (fun j => { j with state := .broken })) :=
      ⟨rfl, rfl, rfl, rfl, rfl⟩
    exact (((ended.trans returned).trans (broken _)).trans (postRingNotice_sameDevice _ _ _)).kept
  | dropEnded j q tag waits =>
    have ended : SameDevice s { s with taking := none } := ⟨rfl, rfl, rfl, rfl, rfl⟩
    have finished (v : State) : SameDevice v (finishDrop q tag v) := by
      unfold finishDrop
      split
      · exact cascade_sameDevice q tag v
      · exact dropUnused_sameDevice q tag v
    exact ((ended.trans (eventFrame_settle _).sameDevice).trans (finished _)).kept
  | fetched n f entries found whole =>
    exact ((settled.trans (fetchDone_sameDevice f entries _)).trans (endFetch_sameDevice n f _)).kept
  | fetchBroke n f entry found =>
    exact ((settled.trans (fetchFailed_sameDevice f entry _)).trans (endFetch_sameDevice n f _)).kept
  | strayEnded q lands =>
    unfold endStray
    split
    · exact ⟨id, id⟩
    · refine ⟨id, fun wf => ?_⟩
      dsimp only
      split
      · exact Memory.wf_writeBytes _ _ _ wf
      · exact wf
  | wrote q p rest oldest =>
    obtain ⟨n, timer, bits, written⟩ := writeDone_eq q p rest s
    have stays := Memory.wf_writeBytes (recordBytes (p.record.encode p.lap)) s.hostMemory
      ((s.reportRing q).slotAddress p.slot)
    rw [written]
    generalize s.hostMemory.writeBytes ((s.reportRing q).slotAddress p.slot) (recordBytes (p.record.encode p.lap)) = m at stays
    exact ⟨id, stays⟩
  | broke q underWay =>
    have lost : SameDevice s (loseRecords (s.reportRing q).unwritten s) := by constructor <;> rw [loseRecords_frame]
    have broke (v : State) : SameDevice v (v.updReportRing q ReportRing.broke) := ⟨rfl, rfl, rfl, rfl, rfl⟩
    unfold ringBreaks
    dsimp only
    split
    · exact (lost.trans (broke _)).kept.trans ⟨fun sound => ⟨sound.1, by simp, sound.2.2⟩, id⟩
    · exact ((lost.trans (broke _)).trans (postRingNotice_sameDevice _ _ _)).kept
  | posted word =>
    unfold postWrite
    repeat' split
    all_goals exact SameDevice.kept ⟨rfl, rfl, rfl, rfl, rfl⟩
  | released word =>
    unfold releaseWrite
    repeat' split
    all_goals exact SameDevice.kept ⟨rfl, rfl, rfl, rfl, rfl⟩
  | ran intEnable run sound => exact ⟨fun device => ⟨device.1, by simp [sound], device.2.2⟩, id⟩
  | startedUp intEnable sound idle absent =>
    unfold startPart
    split
    · exact ⟨fun device => ⟨device.1, by simp [sound], device.2.2⟩, id⟩
    · exact ⟨fun device => ⟨device.1, fun _ => idle, device.2.2⟩, id⟩
  | engineReset intEnable => exact ⟨fun device => ⟨(by decide : State.reset.turn ≠ 0), nofun, device.2.2⟩, id⟩
  | hardwareReset =>
    refine ⟨fun _ => ⟨(by decide : State.reset.turn ≠ 0), nofun, fun l => ?_⟩, id⟩
    have reset : State.reset.line l = {} := by simp [State.line, State.reset]
    exact reset ▸ (by decide : 2 ≤ ({} : InputLine).width ∧ ({} : InputLine).width ≤ 255 ∧ ({} : InputLine).runCount ≤ 254)
  | resetRose levels phase =>
    have rose : SameDevice s { s with phase } := ⟨rfl, rfl, rfl, rfl, rfl⟩
    exact rose.kept.trans (firstSamples_kept levels allLines _)
  | batchExpired | registers => exact SameDevice.kept ⟨rfl, rfl, rfl, rfl, rfl⟩

/-- In a canonical list a read finds exactly what is listed. -/
theorem Memory.read_eq_some_iff (m : Memory) (rising : m.Pairwise (fun x y => x.1 < y.1)) (a : Nat) (b : Byte) :
    m.read a = some b ↔ (a, b) ∈ m := by
  induction m with
  | nil => simp [Memory.read]
  | cons x rest ih =>
    obtain ⟨k, v⟩ := x
    obtain ⟨above, rising⟩ := List.pairwise_cons.mp rising
    by_cases here : k = a
    · subst here
      have notLater : (k, b) ∉ rest := fun later => lt_irrefl k (above _ later)
      simp [Memory.read, notLater, eq_comm]
    · have other : ¬(a = k ∧ b = v) := fun same => here same.1.symm
      simp [Memory.read, here, ih rising, other]

/-- Settles O10: the canonical list, and the two invariants over every form of a command's effect. -/
theorem deviceFieldsStaySound : Obligations.DeviceFieldsStaySound := by
  unfold Obligations.DeviceFieldsStaySound
  refine ⟨fun m => ⟨m.wf_iff, fun wf a b => m.read_eq_some_iff (m.wf_iff.mp wf) a b⟩, fun s t sound stepped => ?_,
    fun s t wf stepped => ?_⟩
  · exact step_keeps (P := State.DeviceSound) False (fun _ _ h => h.elim) (fun _ _ h => h)
      (fun _ _ h form => form.deviceKept.1 h) sound stepped
  · exact step_keeps (P := fun u => u.hostMemory.wf = true) False (fun _ _ h => h.elim) (fun _ _ h => h)
      (fun _ _ h form => form.deviceKept.2 h) wf stepped

end Sys2Proof.Machine

/-!
PROOFS. Waits that are discarded without a record (R19, R108), a close up to its last step at the waits of its session, and
the agreement of wait lists and pool over every step (R96, R97).
-/

namespace Sys2Proof.Machine

/-! ### Waits discarded in list order (R19, R148) -/

theorem recordFrame_returnReservation (q : ReportRingId) (s : State) : RecordFrame s (returnReservation q s) := by
  unfold returnReservation
  split <;> rfl

theorem recordFrame_discardWait (w : WaitId) (s : State) : RecordFrame s (discardWait w s) := by
  unfold discardWait
  split
  · rfl
  · exact (recordFrame_freeWait w s).trans (recordFrame_returnReservation _ _)

theorem returnReservation_wait (q : ReportRingId) (s : State) (x : WaitId) :
    (returnReservation q s).wait x = s.wait x := by
  unfold returnReservation
  split <;> rfl

/-- A discarded wait's entry is free; every other entry is kept. -/
theorem discardWait_wait (w x : WaitId) (s : State) : (discardWait w s).wait x = if x = w then none else s.wait x := by
  unfold discardWait
  split
  next free =>
    split
    next here => rw [here, free]
    next => rfl
  next => rw [returnReservation_wait, freeWait_wait]

/-- A discarded wait returns its reservation to its ring. -/
theorem discardWait_reportRing (w : WaitId) (s : State) (e : WaitEntry) (found : s.wait w = some e) (q : ReportRingId) :
    (discardWait w s).reportRing q = reservationsReturned [e] q (s.reportRing q) := by
  unfold discardWait
  simp only [found, returnReservation_reportRing, freeWait_reportRing, reservationsReturned]
  by_cases own : e.reportRing = q
  · subst own
    simp
  · simp [own, Ne.symm own]

theorem reservationsReturned_cons (e : WaitEntry) (rest : List WaitEntry) (id : ReportRingId) (q : ReportRing) :
    reservationsReturned (e :: rest) id q = reservationsReturned rest id (reservationsReturned [e] id q) := by
  unfold reservationsReturned
  by_cases own : e.reportRing = id <;> simp [own]

/-- `u` is `s` after the waits of `l` have been discarded, in list order; all are waits of session `k`. -/
structure WaitsDiscarded (k : SessionId) (l : List WaitId) (s u : State) : Prop where
  frame : RecordFrame s u
  others : OtherSessionsKept k s u
  session : u.session k = { s.session k with waits := (s.session k).waits.diff l }
  wait : ∀ x, u.wait x = if x ∈ l then none else s.wait x
  rings : ∀ q, u.reportRing q = reservationsReturned (l.filterMap s.wait) q (s.reportRing q)

theorem discardWaits_discarded (k : SessionId) (l : List WaitId) (s : State) (distinct : l.Nodup)
    (own : ∀ w ∈ l, ∃ e, s.wait w = some e ∧ e.session = k) : WaitsDiscarded k l s (discardWaits l s) := by
  induction l generalizing s with
  | nil => exact ⟨.refl s, fun _ _ => rfl, rfl, by simp [discardWaits], fun _ => rfl⟩
  | cons w rest ih =>
    obtain ⟨fresh, distinct⟩ := List.nodup_cons.mp distinct
    obtain ⟨e, found, mine⟩ := own w (by simp)
    have other {x : WaitId} (hx : x ∈ rest) : x ≠ w := ne_of_mem_of_not_mem hx fresh
    have later := ih (discardWait w s) distinct fun x hx => by
      rw [discardWait_wait, if_neg (other hx)]
      exact own x (by simp [hx])
    refine ⟨(recordFrame_discardWait w s).trans later.frame, fun j hj => ?_, ?_, fun x => ?_, fun q => ?_⟩
    · exact (later.others j hj).trans ((discardWait_session w s e found j).trans (if_neg (mine ▸ hj)))
    · have first := (discardWait_session w s e found k).trans (if_pos mine.symm)
      exact later.session.trans (by rw [first, List.diff_cons])
    · refine (later.wait x).trans ?_
      rw [discardWait_wait]
      by_cases here : x = w
      · simp [here]
      · simp [here]
    · refine (later.rings q).trans ?_
      have entries : rest.filterMap (discardWait w s).wait = rest.filterMap s.wait :=
        List.filterMap_congr fun x hx => by rw [discardWait_wait, if_neg (other hx)]
      rw [entries, discardWait_reportRing w s e found, List.filterMap_cons_some found, ← reservationsReturned_cons]

/-- Discarding a session's waits leaves it none. -/
theorem dropWaits_discarded (k : SessionId) (s : State) (agree : s.WaitsAgree) :
    WaitsDiscarded k (s.session k).waits s (dropWaits k s) :=
  discardWaits_discarded k _ s (agree.2.1 k).1 fun w hw => (agree.1 k w).mp hw

/-! ### The agreement over effects -/

/-- The agreement is about the lists, the sessions that outstanding entries name, and which sessions are FREE. -/
theorem State.WaitsAgree.of_fewer_free {s t : State} (agree : s.WaitsAgree)
    (pool : ∀ w, (t.wait w).map WaitEntry.session = (s.wait w).map WaitEntry.session)
    (lists : ∀ k, (t.session k).waits = (s.session k).waits)
    (states : ∀ k, (t.session k).state = .free → (s.session k).state = .free) : t.WaitsAgree := by
  obtain ⟨listed, sizes, free⟩ := agree
  have named (u : State) (w : WaitId) (k : SessionId) :
      (∃ e, u.wait w = some e ∧ e.session = k) ↔ (u.wait w).map WaitEntry.session = some k := by simp
  refine ⟨fun k w => ?_, fun k => ?_, fun k isFree => ?_⟩
  · rw [lists, listed, named, named, pool]
  · rw [lists]
    exact sizes k
  · rw [lists]
    exact free k (states k isFree)

/-- An outstanding entry that is freed with its place in its session's list, whatever becomes of its reservation. -/
theorem State.WaitsAgree.freed {s t : State} (agree : s.WaitsAgree) (w : WaitId) (e : WaitEntry)
    (found : s.wait w = some e) (pool : ∀ x, t.wait x = if x = w then none else s.wait x)
    (entry : ∀ i, t.session i =
      if i = e.session then { s.session i with waits := (s.session i).waits.erase w } else s.session i) :
    t.WaitsAgree := by
  have done := agree.completeWait w .success
  refine done.of_same (fun x => ?_) (fun k => ?_) fun k => ?_
  · rw [pool, Machine.completeWait, completeWaitAt_wait]
  · rw [entry, Machine.completeWait, completeWaitAt_session w _ _ s e found]
  · rw [entry, Machine.completeWait, completeWaitAt_session w _ _ s e found]

theorem Effect.waitsAgree {guard : Prop} {s t : State} (effect : Effect guard s t) (agree : s.WaitsAgree) :
    t.WaitsAgree := by
  cases effect with
  | post i kind status index value flags live => exact agree.postRecord i kind status index value flags
  | entry i e live mild tame =>
    refine agree.of_fewer_free (fun _ => rfl) (fun k => ?_) fun k isFree => ?_
    · rw [State.session_setSession]
      split
      next own => rw [own, mild.waits]
      next => rfl
    · rw [State.session_setSession] at isFree
      split at isFree
      next own => exact own ▸ mild.free isFree
      next => exact isFree
  | marks i =>
    exact agree.updSession i Session.handsMarks (fun e => e.handsMarks_keeps_waits.1)
      fun e => e.handsMarks_keeps_waits.2
  | taken f p out paced after => exact agree.updSession p _ (fun _ => rfl) fun _ => rfl
  | complete w status stamp =>
    cases found : s.wait w with
    | none => simpa [completeWaitAt, found] using agree
    | some e =>
      exact agree.freed w e found (fun x => completeWaitAt_wait w x status stamp s)
        fun i => completeWaitAt_session w status stamp s e found i
  | discard w =>
    cases found : s.wait w with
    | none => simpa [discardWait, found] using agree
    | some e => exact agree.freed w e found (fun x => discardWait_wait w x s) fun i => discardWait_session w s e found i
  | lower w e cond found =>
    refine agree.of_same (fun x => ?_) (fun _ => rfl) fun _ => rfl
    rw [State.wait_setWait]
    split
    next here => rw [here, found]; rfl
    next => rfl
  | output l o => exact agree.of_same (fun _ => rfl) (fun _ => rfl) fun _ => rfl

theorem Effects.waitsAgree {guard : Prop} {s t : State} (run : Effects guard s t) (agree : s.WaitsAgree) :
    t.WaitsAgree := run.keep (fun _ _ effect => effect.waitsAgree) agree

/-! ### A close at the waits of its session -/

theorem diff_self_eq_nil (l : List WaitId) : l.diff l = [] := by
  induction l with
  | nil => rfl
  | cons w rest ih => simpa using ih

/-- What ends the waits of a session at a close: all of them, with records or without. -/
structure EndsAllWaits (endWaits : SessionId → State → State) : Prop where
  effects : ∀ k s, Effects False s (endWaits k s)
  none_left : ∀ k s, s.WaitsAgree → ((endWaits k s).session k).waits = []

theorem closeWaits_endsAll : EndsAllWaits closeWaits where
  effects := effects_closeWaits
  none_left := by
    intro k s agree
    have done := completeWaits_completed (fun _ => some .sessionClosed) k s agree
    have all : (s.session k).waits.filter (endsWait (fun _ => some Status.sessionClosed) s) = (s.session k).waits := by
      refine List.filter_eq_self.mpr fun w hw => ?_
      obtain ⟨e, found, -⟩ := (agree.1 k w).mp hw
      simp [endsWait, found]
    rw [closeWaits, done.session, all]
    exact diff_self_eq_nil _

theorem dropWaits_endsAll : EndsAllWaits dropWaits where
  effects := effects_dropWaits
  none_left := by
    intro k s agree
    rw [(dropWaits_discarded k s agree).session]
    exact diff_self_eq_nil _

theorem EndsAllWaits.beforeFreed {endWaits : SessionId → State → State} (ends : EndsAllWaits endWaits) (k : SessionId)
    {s : State} (agree : s.WaitsAgree) : ((Machine.beforeFreed endWaits k s).session k).waits = [] :=
  ends.none_left k _ ((((effects_flushMarks k s).trans (effects_releaseFollowers k _ _)).trans
    (effects_leavePacer k _)).waitsAgree (guard := False) agree)

theorem purgeSession_session (k : SessionId) (s : State) (j : SessionId) :
    (purgeSession k s).session j = s.session j := by
  unfold purgeSession
  split <;> rfl

theorem purgeSession_wait (k : SessionId) (s : State) (x : WaitId) : (purgeSession k s).wait x = s.wait x := by
  unfold purgeSession
  split <;> rfl

/-- The sessions after a close: the closed one is FREE, the others are as before its last steps. -/
theorem closeSession_session (endWaits : SessionId → State → State) (k j : SessionId) (s : State) :
    (closeSession endWaits k s).session j = if j = k then {} else (beforeFreed endWaits k s).session j := by
  rw [closeSession_eq, State.session_setSession, purgeSession_session]
  rfl

theorem closeSession_wait (endWaits : SessionId → State → State) (k : SessionId) (s : State) (x : WaitId) :
    (closeSession endWaits k s).wait x = (beforeFreed endWaits k s).wait x := by
  rw [closeSession_eq, State.wait_setSession, purgeSession_wait]
  rfl

theorem EndsAllWaits.waitsAgree {endWaits : SessionId → State → State} (ends : EndsAllWaits endWaits) (k : SessionId)
    {s : State} (agree : s.WaitsAgree) : (closeSession endWaits k s).WaitsAgree := by
  have none_left := ends.beforeFreed k agree
  obtain ⟨listed, sizes, free⟩ := (effects_beforeFreed ends.effects k s).waitsAgree agree
  have entry (j : SessionId) := closeSession_session endWaits k j s
  have lists (j : SessionId) :
      ((closeSession endWaits k s).session j).waits = ((Machine.beforeFreed endWaits k s).session j).waits := by
    rw [entry]
    split
    next own => rw [own, none_left]
    next => rfl
  refine ⟨fun j w => ?_, fun j => ?_, fun j isFree => ?_⟩
  · rw [lists, closeSession_wait, listed]
  · rw [lists]
    exact sizes j
  · rw [entry] at isFree ⊢
    split at isFree
    next own => rw [if_pos own]
    next other => rw [if_neg other, free j isFree]

/-! ### The agreement over every step -/

theorem State.WaitsAgree.congr {s t : State} (agree : s.WaitsAgree) (waits : t.waits = s.waits)
    (sessions : t.sessions = s.sessions) : t.WaitsAgree :=
  agree.of_same (fun w => by rw [State.wait_congr s t waits]) (fun k => by rw [State.session_congr s t sessions])
    fun k => by rw [State.session_congr s t sessions]

theorem answer_waitsAgree (r : JobRingId) (report : ReportRingId) (tag : BitVec 16) (a : Answer) {t : State}
    (agree : t.WaitsAgree) : (answer r report tag a t).WaitsAgree := by
  have rings := answer_onlyRings r report tag a t
  exact agree.congr (by rw [rings]) (by rw [rings])

/-- The session that OPEN selects is FREE and so has no waits. -/
theorem configure_waitsAgree (r : JobRingId) (k : SessionId) (w : JobRecord) (setup : Session) {t : State}
    (agree : t.WaitsAgree) (isFree : (t.session k).state = .free) (asked : openSetup w = some setup)
    (passes : openRefusal r w setup t = none) : (configure r k w setup t).WaitsAgree := by
  have entry := configure_session r k w setup t (openRefusal_other r w setup t passes k isFree)
  have none_waits : (openedSession r w setup t).waits = [] := by
    rw [openedSession, openSetup_fresh w setup asked]
  have pool (x : WaitId) : (configure r k w setup t).wait x = t.wait x :=
    State.wait_congr _ _ (by rw [configure_frame]) x
  refine agree.of_fewer_free (fun x => by rw [pool]) (fun j => ?_) fun j => ?_
  · rw [entry]
    split
    next own => rw [none_waits, own, agree.2.2 k isFree]
    next => split <;> rfl
  · rw [entry]
    split
    next => exact nofun
    next => split <;> exact id

theorem takeWait_waitsAgree (r : JobRingId) (k : SessionId) (w : JobRecord) (cond : WaitCond) (id : WaitId) {t : State}
    (agree : t.WaitsAgree) (live : (t.session k).state ≠ .free)
    (room : (t.session k).waits.length < Config.maxSessionWaits) (isFree : t.wait id = none) :
    (takeWait r k w cond id t).WaitsAgree := by
  obtain ⟨listed, sizes, free⟩ := agree
  have entry (j : SessionId) : (takeWait r k w cond id t).session j =
      if j = k then { t.session k with waits := (t.session k).waits ++ [id] } else t.session j :=
    State.session_updSession _ k j _
  have pool (x : WaitId) : (takeWait r k w cond id t).wait x = if x = id then some (newWait r k w cond t) else t.wait x :=
    State.wait_setWait t id x _
  have unlisted (j : SessionId) : id ∉ (t.session j).waits := by
    rw [listed, isFree]
    simp
  refine ⟨fun j x => ?_, fun j => ?_, fun j => ?_⟩
  · rw [entry, pool]
    by_cases here : x = id
    · subst here
      by_cases own : j = k
      · simp [own, newWait]
      · simp [own, unlisted, newWait, Ne.symm own]
    · by_cases own : j = k
      · simp [own, here, listed]
      · simp [own, here, listed]
  · rw [entry]
    split
    · refine ⟨List.nodup_append.mpr ⟨(sizes k).1, List.nodup_singleton id, ?_⟩, ?_⟩
      · rintro a ha b hb rfl
        exact unlisted k (List.mem_singleton.mp hb ▸ ha)
      · simp only [List.length_append, List.length_singleton]
        omega
    · exact sizes j
  · rw [entry]
    split
    · exact fun h => absurd h live
    · exact free j

theorem JobDone.waitsAgree {guard : Prop} {r : JobRingId} {t u : State} (done : JobDone guard r t u)
    (agree : t.WaitsAgree) : u.WaitsAgree := by
  cases done with
  | effects run => exact run.waitsAgree agree
  | opened k w setup isFree asked passes => exact configure_waitsAgree r k w setup agree isFree asked passes
  | closed k live => exact closeWaits_endsAll.waitsAgree k agree
  | lineSet l inverted width wide narrow =>
    have set : (t.setLine l { t.line l with inverted, width }).WaitsAgree := agree
    exact (setUpLine_effects (guard := False) l inverted width t).waitsAgree set
  | jobRingMade | jobRingDropped | jobRingRestarted | reportRingMade | tuned => exact agree

theorem closeAllQuietly_waitsAgree (l : List SessionId) {t : State} (agree : t.WaitsAgree) :
    (closeAllQuietly l t).WaitsAgree := by
  induction l generalizing t with
  | nil => exact agree
  | cons k rest ih => exact ih (dropWaits_endsAll.waitsAgree k agree)

theorem cascade_waitsAgree (q : ReportRingId) (tag : BitVec 16) {t : State} (agree : t.WaitsAgree) :
    (cascade q tag t).WaitsAgree := by
  have dropped (rings : List JobRingId) : (cascadeDropRings rings t).WaitsAgree :=
    agree.congr (by rw [cascadeDropRings_frame]) (by rw [cascadeDropRings_frame])
  exact answer_waitsAgree _ _ _ _ (closeAllQuietly_waitsAgree _ (dropped _) :
    (forgetReportRing q (closeAllQuietly _ _)).WaitsAgree)

theorem dropUnused_waitsAgree (q : ReportRingId) (tag : BitVec 16) {t : State} (agree : t.WaitsAgree) :
    (dropUnused q tag t).WaitsAgree := answer_waitsAgree _ _ _ _ (agree : (forgetReportRing q t).WaitsAgree)

theorem JobResult.waitsAgree {guard : Prop} {r : JobRingId} {t u : State} (result : JobResult guard r t u)
    (agree : t.WaitsAgree) : u.WaitsAgree := by
  cases result with
  | answered w a done => exact answer_waitsAgree _ _ _ _ (done.waitsAgree agree)
  | waiting k w cond id live owner room isFree => exact takeWait_waitsAgree r k w cond id agree live room isFree
  | cascaded q tag control work broken => exact cascade_waitsAgree q tag agree
  | unused q tag control work isOpen noUser => exact dropUnused_waitsAgree q tag agree
  | fetching | dropping => exact agree

theorem endFetch_waitsAgree (n : Nat) (f : PointFetch) {t : State} (agree : t.WaitsAgree) :
    (endFetch n f t).WaitsAgree := by
  unfold endFetch
  dsimp only
  split <;> exact agree

theorem fetchDone_waitsAgree (f : PointFetch) (entries : List PointEntry) {t : State} (agree : t.WaitsAgree) :
    (fetchDone f entries t).WaitsAgree := by
  unfold fetchDone
  dsimp only
  split
  · exact agree
  · split
    · exact answer_waitsAgree _ _ _ _ agree
    · split
      · exact answer_waitsAgree _ _ _ _ agree
      next points _ =>
        refine answer_waitsAgree _ _ _ _ (agree.updSession f.session (·.stage points f.mode) (fun e => ?_) fun e => ?_)
        all_goals
          unfold Session.stage
          dsimp only
          split <;> rfl

theorem fetchFailed_waitsAgree (f : PointFetch) (entry : Nat) {t : State} (agree : t.WaitsAgree) :
    (fetchFailed f entry t).WaitsAgree := by
  unfold fetchFailed
  split
  · exact agree
  · split <;> exact answer_waitsAgree _ _ _ _ agree

theorem postRingNotice_waitsAgree (status : Status) (value : Word32) {t : State} (agree : t.WaitsAgree) :
    (postRingNotice status value t).WaitsAgree := by
  unfold postRingNotice
  dsimp only
  repeat' split
  all_goals exact agree

/-- Lost counts touch neither lists nor states. -/
theorem loseRecords_session (l : List Placed) (s : State) (k : SessionId) :
    ∃ n, (loseRecords l s).session k = { s.session k with lost := n } := by
  induction l generalizing s with
  | nil => exact ⟨_, rfl⟩
  | cons p rest ih =>
    rw [loseRecords]
    obtain ⟨n, later⟩ := ih (match p.owner with
      | none => s
      | some k => s.updSession k (fun e => { e with lost := satInc e.lost }))
    refine ⟨n, later.trans ?_⟩
    cases p.owner with
    | none => rfl
    | some j =>
      simp only [State.session_updSession]
      split
      next own => rw [own]
      next => rfl

theorem ringBreaks_waitsAgree (q : ReportRingId) {s : State} (agree : s.WaitsAgree) : (ringBreaks q s).WaitsAgree := by
  have lost : (loseRecords (s.reportRing q).unwritten s).WaitsAgree := by
    refine agree.of_same (fun w => ?_) (fun k => ?_) fun k => ?_
    · rw [State.wait_congr s _ (by rw [loseRecords_frame])]
    all_goals
      obtain ⟨n, entry⟩ := loseRecords_session (s.reportRing q).unwritten s k
      rw [entry]
  unfold ringBreaks
  dsimp only
  split
  · exact lost
  · exact postRingNotice_waitsAgree _ _ lost

theorem periodPasses_wait (s : State) (x : WaitId) :
    (periodPasses s).wait x = (s.wait x).map fun e => { e with timer := timerPassed e.timer } := by
  simp only [periodPasses, State.wait, Fin.getElem_fin, Vector.getElem_map]

theorem periodPasses_waitsAgree {s : State} (agree : s.WaitsAgree) : (periodPasses s).WaitsAgree := by
  refine agree.of_same (fun w => ?_) (fun k => ?_) fun k => ?_
  · rw [periodPasses_wait, Option.map_map]
    rfl
  all_goals rw [State.session_congr s _ (periodPasses_sessions s)]

/-- Samples and accepted levels reach the lines only. -/
theorem sampleLines_frame (levels : BitVec 16) (l : List LineId) (t : State) :
    sampleLines levels l t = { t with lines := (sampleLines levels l t).lines } := by
  induction l generalizing t with
  | nil => rfl
  | cons x rest ih =>
    rw [sampleLines, ih]
    rfl

theorem firstSamples_frame (levels : BitVec 16) (l : List LineId) (t : State) :
    firstSamples levels l t = { t with lines := (firstSamples levels l t).lines } := by
  induction l generalizing t with
  | nil => rfl
  | cons x rest ih =>
    rw [firstSamples, ih]
    rfl

theorem qualifiedEdges_waitsAgree (lines : BitVec 16) (order : List Delivery) {s : State} (agree : s.WaitsAgree) :
    (qualifiedEdges lines order s).WaitsAgree := by
  have accepted : (acceptLines lines allLines s).WaitsAgree :=
    agree.congr (by rw [acceptLines_frame]) (by rw [acceptLines_frame])
  exact (effects_handEdges (guard := False) lines order _).waitsAgree accepted

theorem reset_waitsAgree {t : State} (waits : t.waits = State.reset.waits) (sessions : t.sessions = State.reset.sessions) :
    t.WaitsAgree := by
  have none_waits (x : WaitId) : t.wait x = none := by
    rw [State.wait_congr State.reset t waits]
    simp [State.wait, State.reset]
  have entries (k : SessionId) : t.session k = {} := by
    rw [State.session_congr State.reset t sessions]
    simp [State.session, State.reset]
  refine ⟨fun k w => ?_, fun k => ?_, fun k _ => ?_⟩
  · simp [entries, none_waits]
  · simp [entries]
  · rw [entries]

theorem StepResult.waitsAgree {s t : State} (result : StepResult False s t) (agree : s.WaitsAgree) : t.WaitsAgree := by
  have settled := agree.settle
  cases result with
  | events run => exact run.waitsAgree agree
  | edges lines order => exact qualifiedEdges_waitsAgree lines order settled
  | sampled levels order =>
    have sampled : (sampleLines levels allLines (periodPasses s)).WaitsAgree :=
      (periodPasses_waitsAgree agree).congr (by rw [sampleLines_frame]) (by rw [sampleLines_frame])
    unfold samplePins
    dsimp only
    split
    · exact sampled
    · exact qualifiedEdges_waitsAgree _ order sampled.settle
  | job r reading result => exact result.waitsAgree (agree.recordArrives r)
  | fetchFailed r reading =>
    have ended : ({ s with taking := none } : State).WaitsAgree := agree
    have returned : (returnReservation (s.jobRing r).bound { s with taking := none }).WaitsAgree :=
      ended.of_same (fun w => by rw [returnReservation_wait])
        (fun k => by rw [State.session_congr _ _ (returnReservation_sessions _ _)])
        fun k => by rw [State.session_congr _ _ (returnReservation_sessions _ _)]
    exact postRingNotice_waitsAgree _ _ (returned.congr (t := State.updJobRing _ r _) rfl rfl)
  | dropEnded j q tag waits =>
    have ended : ({ s with taking := none } : State).WaitsAgree := agree
    unfold finishDrop
    split
    · exact cascade_waitsAgree q tag ended.settle
    · exact dropUnused_waitsAgree q tag ended.settle
  | fetched n f entries found whole => exact endFetch_waitsAgree n f (fetchDone_waitsAgree f entries settled)
  | fetchBroke n f entry found => exact endFetch_waitsAgree n f (fetchFailed_waitsAgree f entry settled)
  | strayEnded q lands =>
    unfold endStray
    split <;> exact agree.congr rfl rfl
  | wrote q p rest oldest =>
    obtain ⟨n, timer, bits, written⟩ := writeDone_eq q p rest s
    exact agree.congr (by rw [written]; rfl) (by rw [written]; rfl)
  | broke q underWay => exact ringBreaks_waitsAgree q agree
  | posted word =>
    unfold postWrite
    repeat' split
    all_goals exact agree.congr rfl rfl
  | released word =>
    unfold releaseWrite
    repeat' split
    all_goals exact agree.congr rfl rfl
  | startedUp intEnable sound idle absent =>
    unfold startPart
    split <;> exact agree.congr rfl rfl
  | resetRose levels phase =>
    have rose : ({ s with phase } : State).WaitsAgree := agree
    exact rose.congr (by rw [firstSamples_frame]) (by rw [firstSamples_frame])
  | engineReset intEnable => exact reset_waitsAgree rfl rfl
  | hardwareReset => exact reset_waitsAgree rfl rfl
  | took | batchExpired | registers | ran => exact agree.congr rfl rfl

/-- Settles O7: every form of a command's effect keeps wait lists and pool in agreement. -/
theorem waitListsAndPoolAgree : Obligations.WaitListsAndPoolAgree := by
  unfold Obligations.WaitListsAndPoolAgree
  intro s t before stepped
  exact step_keeps (P := State.WaitsAgree) False (fun _ _ h => h.elim) (fun _ _ h => h)
    (fun _ _ h form => form.waitsAgree h) before stepped

end Sys2Proof.Machine

/-!
PROOFS. The jobs that change nothing but their own session: HOLD (R83), READ (R34 to R38), START (R10), OUTPUTS (R123).
-/

namespace Sys2Proof.Machine

/-! ### HOLD (R44, R83) -/

/-- HOST joins whatever the set holds; a window in progress is marked partial when HOST was absent. -/
theorem Session.joinHost_eq (e : Session) :
    e.joinHost =
      { e with hold := { e.hold with host := true }, partialFlag := e.partialFlag || (e.windowOpen && !e.hold.host) } := by
  obtain held | absent := Bool.eq_false_or_eq_true e.hold.host
  · have same : e.hold = { e.hold with host := true } := by rw [← held]
    simp only [Session.joinHost, held, if_true, Bool.not_true, Bool.and_false, Bool.or_false, ← same]
  · simp [Session.joinHost, absent]

/-- Settles O26: a HOLD that reaches its checks is an update of its own session and then its answer. -/
theorem holdAddsHost : Obligations.HoldAddsHost := by
  unfold Obligations.HoldAddsHost
  intro w s r k reaches t e
  have runs : exec (.hold w) s = .next (holdBody r k w t) :=
    congrArg Host.Outcome.next (withTaken_workJob holdBody w s r k reaches)
  obtain ⟨tables, others, entry, answered⟩ := reply_updSession r k w .success e.count Session.joinHost t
  exact ⟨_, runs, tables, others, entry.trans e.joinHost_eq, answered⟩

/-! ### READ (R34 to R38) -/

/-- The items in the order of their codes (R176). -/
theorem readItemOf_eq (b : Byte) :
    readItemOf b = [ReadItem.count, .capture, .state, .wraps, .illegal, .lists][b.toNat]? := by
  unfold readItemOf
  generalize b.toNat = n
  rcases n with _ | _ | _ | _ | _ | _ | n <;> rfl

/-- An empty capture has no flag to clear. -/
theorem Session.afterRead_capture_of_empty (e : Session) (clear : Bool) (empty : e.capture.valid = false) :
    e.afterRead .capture clear = e := by
  have same : { e.capture with valid := false } = e.capture := by rw [← empty]
  simp only [Session.afterRead, same]

/-- A READ of an item changes what the item changes and is answered by one record with the item's value, flags and
stamp. -/
theorem readBody_done (w : JobRecord) (r : JobRingId) (k : SessionId) (t : State) (item : ReadItem)
    (asked : readItemOf (w.byte 8) = some item) (value : Nat) (flags : RecordFlags) (stamp : Word32)
    (answered : readAnswer item w (t.session k) t.stamp =
      { status := .success, session := w.session, value := toWord value, flags, stamp }) :
    let u := readBody r k w t
    OnlyTables t u ∧ OtherSessionsKept k t u ∧ u.session k = (t.session k).afterRead item (w.flag 0) ∧
      Handed [((t.jobRing r).bound,
        { ownRecord r w.tag .success w.session (toWord value) flags t with stamp := stamp })] t u ∧
      HaltedBy .success r t u := by
  rw [readBody_of_item r k w t item asked, answered]
  exact answerNow_updSession r k w _ (·.afterRead item (w.flag 0)) t

theorem Session.stateValue_eq (e : Session) :
    e.stateValue = toWord
      ((match e.state with | .free => 0 | .idle => 1 | .active => 2 | .faulted => 3)
        + (if e.hold.host then 256 else 0) + (if e.hold.inhibit then 512 else 0) + (if e.hold.pacer then 1024 else 0)
        + (if e.faultCause = none then 0 else 65536)) := by
  have fault : (if e.faultCause.isSome = true then 2 ^ 16 else 0) = if e.faultCause = none then 0 else 65536 := by
    obtain none | some := Option.eq_none_or_eq_some e.faultCause
    · simp [none]
    · obtain ⟨c, some⟩ := some
      simp [some]
  rw [Session.stateValue, fault]
  rfl

theorem Session.listsValue_eq (e : Session) :
    e.listsValue = toWord
      (match e.staged with
        | none => e.active.length
        | some st => e.active.length + 256 + st.points.length * 65536
            + (match st.mode with | .now => 0 | .atWrap => 1 | .atWindow => 2 | .onCommit => 3) * 16777216) := by
  unfold Session.listsValue
  cases e.staged <;> rfl

/-- Settles O23: item by item, the answer of the item and what reading it changes. -/
theorem readReportsTheItem : Obligations.ReadReportsTheItem := by
  unfold Obligations.ReadReportsTheItem
  intro w s r k reaches t e item clear done
  have runs : exec (.read w) s = .next (readBody r k w t) := exec_read w s r k reaches
  clear_value t
  have asked (n : Nat) (code : item = n) :
      readItemOf (w.byte 8) = [ReadItem.count, .capture, .state, .wraps, .illegal, .lists][n]? :=
    (readItemOf_eq _).trans (by rw [show (w.byte 8).toNat = n from code])
  have result (i : ReadItem) (named : readItemOf (w.byte 8) = some i) (value : Nat) (flags : RecordFlags)
      (stamp : Word32) (answered : readAnswer i w e t.stamp =
        { status := .success, session := w.session, value := toWord value, flags, stamp }) :
      done (e.afterRead i clear) value flags stamp :=
    ⟨_, runs, readBody_done w r k t i named value flags stamp answered⟩
  have stamped (v : Word32) (value : Nat) (same : v = toWord value) :
      (⟨.success, w.session, v, {}, t.stamp⟩ : Answer) = ⟨.success, w.session, toWord value, {}, t.stamp⟩ := by
    rw [same]
  refine ⟨fun large => ?_, fun code => ?_, fun code valid => ?_, fun code empty => ?_, fun code => ?_, fun code => ?_,
    fun code => ?_, fun code => ?_⟩
  · have unknown : readItemOf (w.byte 8) = none :=
      (readItemOf_eq _).trans (List.getElem?_eq_none (Nat.succ_le_of_lt large))
    have body : readBody r k w t = reply r w .badParam 0 t := by simp only [readBody, unknown]
    rw [runs, body]
    exact reply_refused r w .badParam 0 t rfl
  · exact result .count (asked 0 code) _ _ _ rfl
  · exact result .capture (asked 1 code) _ _ _ (if_pos valid)
  · have answered := result .capture (asked 1 code) 0 { captureEmpty := true } t.stamp (if_neg (ne_true_of_eq_false empty))
    rw [e.afterRead_capture_of_empty clear empty] at answered
    exact answered
  · exact result .state (asked 2 code) _ _ _ (stamped _ _ e.stateValue_eq)
  · exact result .wraps (asked 3 code) _ _ _ rfl
  · exact result .illegal (asked 4 code) _ _ _ rfl
  · exact result .lists (asked 5 code) _ _ _ (stamped _ _ e.listsValue_eq)

/-! ### START (R10, R24, R47, R50, R54, R56) -/

/-- The entry that START has made ACTIVE, with PACER for a follower. -/
def Session.joined (e : Session) : Session :=
  { e with
    state := .active
    hold := { e.hold with pacer := e.hold.pacer || e.pacer.isSome }
    partialFlag := e.partialFlag || (e.pacer.isSome && !e.hold.pacer && e.windowOpen) }

theorem Session.joined_eq (e : Session) :
    (if ({ e with state := .active } : Session).pacer.isSome then ({ e with state := .active } : Session).joinPacer
      else { e with state := .active }) = e.joined := by
  cases paced : e.pacer.isSome with
  | false => simp [Session.joined, paced]
  | true =>
    cases held : e.hold.pacer with
    | false => simp [Session.joined, Session.joinPacer, paced, held]
    | true =>
      have same : e.hold = { e.hold with pacer := true } := by rw [← held]
      simp only [Session.joinPacer, Session.joined, paced, held, if_true, Bool.true_or, Bool.not_true, Bool.and_false,
        Bool.false_and, Bool.or_false, ← same]

/-- A hold set is empty exactly when it is the empty set. -/
theorem HoldSet.isEmpty_iff (h : HoldSet) : h.isEmpty = true ↔ h = {} := by
  obtain ⟨host, inhibit, pacer⟩ := h
  simp [HoldSet.isEmpty, and_assoc]

theorem HoldSet.not_isEmpty_eq (h : HoldSet) : (!h.isEmpty) = decide (h ≠ {}) := by
  rw [Bool.eq_iff_iff, Bool.not_eq_true', decide_eq_true_eq, ne_eq, ← h.isEmpty_iff, Bool.not_eq_true]

/-- The whole entry after a START, by its mode and its window source. -/
theorem Session.started_eq (e : Session) (pair : Option (Bool × Bool)) :
    e.started pair =
      let begins := (e.mode = some .rate ∨ e.mode = some .interval) ∧ e.windowSource = some .own
      { e.joined with
        count := if e.mode = some .rate then 0 else e.count
        pairRef := if e.mode = some .quad then pair else e.pairRef
        windowOpen := if begins then true else e.windowOpen
        elapsed := if begins then 0 else e.elapsed
        partialFlag := if begins then decide (e.joined.hold ≠ {}) else e.joined.partialFlag
        wrappedFlag := if begins then false else e.wrappedFlag } := by
  unfold Session.started
  dsimp only
  rw [e.joined_eq]
  have mode : e.joined.mode = e.mode := rfl
  have source : e.joined.windowSource = e.windowSource := rfl
  split
  next quad => simp [mode ▸ quad, Session.joined]
  next rate own =>
    simp only [mode ▸ rate, source ▸ own, Session.beginWindow, HoldSet.not_isEmpty_eq]
    simp [Session.joined]
  next rate other =>
    have paced : e.windowSource ≠ some .own := fun own => other (source ▸ own)
    simp [mode ▸ rate, paced, Session.joined]
  next interval own =>
    simp only [mode ▸ interval, source ▸ own, Session.beginWindow, HoldSet.not_isEmpty_eq]
    simp [Session.joined]
  next notQuad notRate _ notInterval =>
    have quad : e.mode ≠ some .quad := fun h => notQuad (mode ▸ h)
    have rate : e.mode ≠ some .rate := fun h => notRate (mode ▸ h)
    have interval (own : e.windowSource = some .own) : e.mode ≠ some .interval := fun h =>
      notInterval (mode ▸ h) (source ▸ own)
    by_cases own : e.windowSource = some .own
    · simp [quad, rate, interval own, Session.joined]
    · simp [quad, rate, own, Session.joined]

/-- Settles O20: the two refusals, and the setup of the mode in the entry of the session. -/
theorem startBeginsMeasuring : Obligations.StartBeginsMeasuring := by
  unfold Obligations.StartBeginsMeasuring
  intro w s r k reaches t e o joins hold begins
  have runs : o = .next (startBody r k w t) := congrArg Host.Outcome.next (withTaken_workJob startBody w s r k reaches)
  rw [runs]
  clear_value t
  refine ⟨fun notIdle => ?_, fun idle source lost => ?_, fun idle passes => ?_⟩
  · have body : startBody r k w t = reply r w .wrongState 0 t := if_pos notIdle
    rw [body]
    exact reply_refused r w .wrongState 0 t rfl
  · have body : startBody r k w t = reply r w .badParam 0 t :=
      (if_neg (not_not_intro idle)).trans (if_pos ⟨source, lost⟩)
    rw [body]
    exact reply_refused r w .badParam 0 t rfl
  · let pair := pairLevels e t
    have body : startBody r k w t = reply r w .success (e.started pair).count (t.updSession k (·.started pair)) :=
      (if_neg (not_not_intro idle)).trans (if_neg passes)
    obtain ⟨tables, others, entry, answered⟩ :=
      reply_updSession r k w .success (e.started pair).count (·.started pair) t
    refine ⟨_, congrArg _ body, tables, others, ?_, ?_⟩
    · exact entry.trans (e.started_eq pair)
    · rw [entry]
      exact answered

/-! ### OUTPUTS (R123, R178) -/

/-- A bit of a vector that is gathered line by line. -/
theorem getLsbD_gathered {n : Nat} (p : Fin n → Bool) (l : List (Fin n)) (acc : BitVec n) (m : Fin n) :
    (l.foldl (fun acc x => if p x then acc ||| (1#n <<< x.val) else acc) acc).getLsbD m.val =
      (acc.getLsbD m.val || (decide (m ∈ l) && p m)) := by
  induction l generalizing acc with
  | nil => simp
  | cons x rest ih =>
    have bit : (acc ||| 1#n <<< x.val).getLsbD m.val = (acc.getLsbD m.val || decide (m = x)) := by
      have one : (1#n <<< x.val).getLsbD m.val = decide (m = x) := by
        rw [BitVec.getLsbD_shiftLeft, BitVec.getLsbD_one, Bool.eq_iff_iff]
        simp only [Bool.and_eq_true, Bool.not_eq_true', decide_eq_true_eq, decide_eq_false_iff_not, Fin.ext_iff]
        omega
      rw [BitVec.getLsbD_or, one]
    rw [List.foldl_cons, ih]
    rw [apply_ite (fun v : BitVec n => v.getLsbD m.val), bit]
    by_cases here : m = x
    · subst here
      cases p m <;> simp
    · cases p x <;> simp [here]

/-- A bit that every line of the table may set. -/
theorem getLsbD_gathered_all {n : Nat} (p : Fin n → Bool) (m : Fin n) :
    ((List.finRange n).foldl (fun acc x => if p x then acc ||| (1#n <<< x.val) else acc) 0).getLsbD m.val = p m := by
  have zero : (0 : BitVec n).getLsbD m.val = false := BitVec.getLsbD_zero
  rw [getLsbD_gathered, zero]
  simp [List.mem_finRange]

theorem State.highClaims_bit (s : State) (claims : BitVec 8) (l : OutputId) :
    (s.highClaims claims).getLsbD l.val = (claims.getLsbD l.val && (s.output l).level) :=
  getLsbD_gathered_all (fun l => claims.getLsbD l.val && (s.output l).level) l

/-- Two bytes, one above the other, in a report value. -/
theorem toWord_bytes (low high : BitVec 8) :
    toWord (low.toNat + high.toNat * 2 ^ 8) = (high ++ low).setWidth 32 := by
  refine BitVec.eq_of_toNat_eq ?_
  rw [toWord, BitVec.toNat_ofNat, BitVec.toNat_setWidth, BitVec.toNat_append, ← Nat.shiftLeft_add_eq_or_of_lt low.isLt,
    Nat.shiftLeft_eq, Nat.add_comm]

theorem settingOf_eq (b : Byte) : settingOf b = if b.toNat ≤ 1 then some (decide (b.toNat = 1)) else none := by
  unfold settingOf
  generalize b.toNat = n
  rcases n with _ | _ | n
  · rfl
  · rfl
  · simp

/-- Settles O31: the refusal by the setting, and the flag with the bits of the value. -/
theorem outputsSetsTheFlag : Obligations.OutputsSetsTheFlag := by
  unfold Obligations.OutputsSetsTheFlag
  intro w s r k reaches t e setting
  have runs : exec (.outputs w) s = .next (outputsBody r k w t) :=
    congrArg Host.Outcome.next (withTaken_workJob outputsBody w s r k reaches)
  rw [runs]
  clear_value t
  have asked := settingOf_eq (w.byte 8)
  refine ⟨fun large => ?_, fun small => ?_⟩
  · rw [if_neg (Nat.not_le.mpr large)] at asked
    have body : outputsBody r k w t = reply r w .badParam 0 t := by simp only [outputsBody, asked]
    rw [body]
    exact reply_refused r w .badParam 0 t rfl
  · rw [if_pos small] at asked
    obtain ⟨tables, others, entry, answered⟩ := reply_updSession r k w .success
      (e.claims.toNat + (t.highClaims e.claims).toNat * 2 ^ 8)
      (fun e => { e with outputsEnabled := decide (setting = 1) }) t
    refine ⟨_, rfl, ?_⟩
    simp only [outputsBody, asked]
    refine ⟨tables, others, entry, _, fun l => ?_, fun n beyond => ?_, answered⟩
    · have low : l.val < 8 := l.isLt
      rw [toWord_bytes, ← t.highClaims_bit e.claims l, BitVec.getLsbD_setWidth, BitVec.getLsbD_setWidth,
        BitVec.getLsbD_append, BitVec.getLsbD_append, if_pos low, if_neg (by omega), Nat.add_sub_cancel_left,
        decide_eq_true (by omega), decide_eq_true (by omega), Bool.true_and, Bool.true_and]
      exact ⟨rfl, rfl⟩
    · rw [toWord_bytes, BitVec.getLsbD_setWidth, BitVec.getLsbD_append, if_neg (by omega),
        BitVec.getLsbD_of_ge _ _ (by omega), Bool.and_false]

end Sys2Proof.Machine

/-!
PROOFS. Point lists: LOAD_POINTS (R69, R70, R74), the check of an array (R59, R73, R177) and the ends of a point fetch
(R18, R70, R72 to R74).
-/

namespace Sys2Proof.Machine

/-! ### LOAD_POINTS (R69) -/

/-- The commit modes in the order of their codes (R176). -/
theorem commitModeOf_eq (b : Byte) :
    commitModeOf b = [CommitMode.now, .atWrap, .atWindow, .onCommit][b.toNat]? := by
  unfold commitModeOf
  generalize b.toNat = n
  rcases n with _ | _ | _ | _ | n <;> rfl

theorem commitModeOf_atWindow_iff (b : Byte) : commitModeOf b = some .atWindow ↔ b.toNat = 2 := by
  rw [commitModeOf_eq]
  generalize b.toNat = n
  rcases n with _ | _ | _ | _ | n <;> simp

/-- A mode without windows (R42). -/
theorem timed_eq_false_iff (mode : Option Mode) :
    mode.any (·.isTimed) = false ↔ mode = none ∨ mode = some .tally ∨ mode = some .quad ∨ mode = some .split := by
  rcases mode with _ | m
  · simp
  · cases m <;> simp [Mode.isTimed]

section Checks

variable (w : JobRecord) (timed : Bool)

theorem loadRefusal_of_badMode (bad : commitModeOf (w.byte 9) = none) : loadRefusal w timed = some (.badParam, 0) := by
  simp only [loadRefusal, bad]

theorem loadRefusal_of_noWindow (atWindow : commitModeOf (w.byte 9) = some .atWindow) (untimed : timed = false) :
    loadRefusal w timed = some (.badParam, 0) := by
  simp only [loadRefusal, atWindow, untimed, and_self, if_true]

variable (mode : CommitMode) (named : commitModeOf (w.byte 9) = some mode)
  (fits : ¬(mode = .atWindow ∧ timed = false))

include named fits

theorem loadRefusal_of_tooMany (many : 16 < (w.byte 8).toNat) : loadRefusal w timed = some (.pointInvalid, 16) := by
  simp only [loadRefusal, named, if_neg fits]
  exact if_pos many

theorem loadRefusal_of_empty (empty : (w.byte 8).toNat = 0) : loadRefusal w timed = none := by
  simp only [loadRefusal, named, if_neg fits, empty, if_true]
  exact if_neg (by decide)

variable (few : (w.byte 8).toNat ≤ 16) (some_points : 1 ≤ (w.byte 8).toNat)

include few some_points

/-- With a good mode and 1 to 16 points the address decides. -/
theorem loadRefusal_eq_of_points : loadRefusal w timed =
    if (w.quad 16).toNat % 8 ≠ 0 ∨ 2 ^ 64 < (w.quad 16).toNat + 8 * (w.byte 8).toNat then some (.badParam, 0)
    else none := by
  have tooMany : ¬Config.maxPoints < (w.byte 8).toNat := Nat.not_lt.mpr few
  simp only [loadRefusal, named, if_neg fits, if_neg tooMany, if_neg (Nat.one_le_iff_ne_zero.mp some_points)]
  by_cases unaligned : (w.quad 16).toNat % 8 ≠ 0
  · rw [if_pos unaligned, if_pos (.inl unaligned)]
  · rw [if_neg unaligned]
    simp only [unaligned, false_or]
    rfl

end Checks

section Load

variable (r : JobRingId) (k : SessionId) (w : JobRecord) (t : State)

theorem loadPointsBody_of_refusal (status : Status) (value : Nat)
    (refused : loadRefusal w ((t.session k).mode.any (·.isTimed)) = some (status, value)) :
    loadPointsBody r k w t = reply r w status value t := by
  simp only [loadPointsBody, refused]

variable (passes : loadRefusal w ((t.session k).mode.any (·.isTimed)) = none) (mode : CommitMode)
  (named : commitModeOf (w.byte 9) = some mode)

include passes named

theorem loadPointsBody_of_passes : loadPointsBody r k w t =
    if (w.byte 8).toNat = 0 then
      answerNow r w (stagedAnswer k (t.session k) 0 t.stamp) (t.updSession k (·.stage [] mode))
    else beginFetch r k w (w.byte 8).toNat mode t := by
  simp only [loadPointsBody, passes, named]

end Load

/-- A new list is staged, or becomes active at once with mode NOW. -/
theorem Session.stage_eq (e : Session) (points : List Point) (mode : CommitMode) :
    e.stage points mode =
      if mode = .now then { e with active := points, staged := none } else { e with staged := some { points, mode } } := by
  unfold Session.stage
  split <;> rfl

/-- Settles O24: the checks in their order, the empty list, and the fetch that begins. -/
theorem loadPointsChecksThenFetches : Obligations.LoadPointsChecksThenFetches := by
  unfold Obligations.LoadPointsChecksThenFetches
  intro w s r k reaches t e o code n address noWindow
  have runs : o = .next (loadPointsBody r k w t) :=
    congrArg Host.Outcome.next (withTaken_workJob loadPointsBody w s r k reaches)
  rw [runs]
  clear_value t
  have untimed : e.mode.any (·.isTimed) = false ↔ noWindow := timed_eq_false_iff e.mode
  have refused (status : Status) (value : Nat) (refusal : status.cls = .refusal)
      (refused : loadRefusal w (e.mode.any (·.isTimed)) = some (status, value)) :
      RefusedWith r w.tag status w.session (toWord value) t (.next (loadPointsBody r k w t)) := by
    rw [loadPointsBody_of_refusal r k w t status value refused]
    exact reply_refused r w status value t refusal
  refine ⟨fun large => ?_, fun two window => ?_, fun small window => ?_⟩
  · refine refused .badParam 0 rfl (loadRefusal_of_badMode w _ ?_)
    rw [commitModeOf_eq]
    exact List.getElem?_eq_none (Nat.succ_le_of_lt large)
  · exact refused .badParam 0 rfl
      (loadRefusal_of_noWindow w _ ((commitModeOf_atWindow_iff _).mpr two) (untimed.mpr window))
  · obtain ⟨mode, named⟩ : ∃ mode, commitModeOf (w.byte 9) = some mode := by
      rw [commitModeOf_eq]
      exact ⟨_, List.getElem?_eq_getElem (Nat.lt_succ_of_le small)⟩
    have fits : ¬(mode = .atWindow ∧ e.mode.any (·.isTimed) = false) := by
      rintro ⟨rfl, none_timed⟩
      exact window ⟨(commitModeOf_atWindow_iff _).mp named, untimed.mp none_timed⟩
    refine ⟨fun many => ?_, fun some_points few bad => ?_, fun mode' named' => ?_⟩
    · exact refused .pointInvalid 16 rfl (loadRefusal_of_tooMany w _ mode named fits many)
    · refine refused .badParam 0 rfl ?_
      rw [loadRefusal_eq_of_points w _ mode named fits few some_points, if_pos bad]
    · obtain rfl : mode' = mode := Option.some.inj (named'.symm.trans ((commitModeOf_eq _).symm.trans named))
      refine ⟨fun empty => ?_, fun some_points few aligned inSpace => ?_⟩
      · have body := loadPointsBody_of_passes r k w t (loadRefusal_of_empty w _ mode' named fits empty) mode' named
        rw [if_pos empty] at body
        obtain ⟨tables, others, entry, handed, halted⟩ := answerNow_updSession r k w
          (stagedAnswer k e 0 t.stamp) (·.stage [] mode') t
        refine ⟨_, congrArg _ body, tables, others, entry.trans (e.stage_eq [] mode'), handed, halted⟩
      · have passes : loadRefusal w (e.mode.any (·.isTimed)) = none := by
          rw [loadRefusal_eq_of_points w _ mode' named fits few some_points, if_neg (by omega)]
        have body := loadPointsBody_of_passes r k w t passes mode' named
        rw [if_neg (Nat.one_le_iff_ne_zero.mp some_points)] at body
        refine ⟨_, congrArg _ body, rfl, rfl, fun j => ?_⟩
        exact State.jobRing_updJobRing t r j fun x => { x with fetchInFlight := true }

/-! ### One entry of an array (R59, R73, R177) -/

/-- The direction filters in the order of their codes (R177). -/
theorem dirFilterOf_eq (b : Byte) : dirFilterOf b = [DirFilter.up, .down, .either][b.toNat]? := by
  unfold dirFilterOf
  generalize b.toNat = n
  rcases n with _ | _ | _ | n <;> rfl

/-- The output kinds in the order of their codes (R177). -/
theorem outputKindOf_eq (b : Byte) : outputKindOf b = [OutputKind.set, .clear, .pulse][b.toNat]? := by
  unfold outputKindOf
  generalize b.toNat = n
  rcases n with _ | _ | _ | n <;> rfl

/-- Output lines and job rings are numbered alike. -/
theorem outputOf_eq_some_iff (b : Byte) (l : OutputId) : outputOf b = some l ↔ b.toNat = l.val :=
  jobRingOf_eq_some_iff b l

/-- A table of three codes names something exactly for the codes 0 to 2. -/
theorem exists_code_iff {α : Type} (x y z : α) (n : Nat) : (∃ a, [x, y, z][n]? = some a) ↔ n ≤ 2 := by
  rw [← Option.isSome_iff_exists, isSome_getElem?]
  simp [Nat.lt_succ_iff]

theorem getLsbD_eq_div (b : Byte) (n : Nat) : b.getLsbD n = decide (b.toNat / 2 ^ n % 2 = 1) :=
  Nat.testBit_eq_decide_div_mod_eq

/-- The two bits above the actions are clear. -/
theorem noReservedActions_iff (b : Byte) : b.getLsbD 6 = false ∧ b.getLsbD 7 = false ↔ b.toNat < 64 := by
  have byte := b.isLt
  simp only [getLsbD_eq_div, decide_eq_false_iff_not]
  omega

/-- The OUTPUT action that an entry asks for, where its line is claimed (R65, R73). -/
theorem outputActionOf_eq_some_iff (p : PointEntry) (claims : BitVec 8) (o : Option (OutputId × OutputKind)) :
    outputActionOf p claims = some o ↔
      ((entryByte p 5).getLsbD 2 = false ∧ o = none) ∨
        ((entryByte p 5).getLsbD 2 = true ∧ ∃ line kind, o = some (line, kind) ∧ (entryByte p 6).toNat = line.val ∧
          outputKindOf (entryByte p 7) = some kind ∧ claims.getLsbD line.val = true) := by
  unfold outputActionOf
  cases (entryByte p 5).getLsbD 2 with
  | false => simp [@eq_comm _ none o]
  | true =>
    simp only [if_true, ← outputOf_eq_some_iff, Bool.true_eq_false, false_and, false_or, true_and]
    cases outputOf (entryByte p 6) with
    | none => simp
    | some line =>
      cases outputKindOf (entryByte p 7) with
      | none => simp
      | some kind => simp [@eq_comm _ (some (line, kind)) o, and_comm]

/-- The point of an entry, without the checks of its value and of the bits above its actions. -/
def spelt (p : PointEntry) (filter : DirFilter) (output : Option (OutputId × OutputKind)) : Point :=
  let actions := entryByte p 5
  { value := (p.extractLsb' 0 32).toNat, filter
    actions :=
      { latch := actions.getLsbD 0, report := actions.getLsbD 1, output, pace := actions.getLsbD 3,
        zero := actions.getLsbD 4, hold := actions.getLsbD 5 } }

theorem pointOf_eq_some_iff (p : PointEntry) (previous : Option Nat) (limit : Nat) (claims : BitVec 8) (point : Point) :
    pointOf p previous limit claims = some point ↔
      ∃ filter output, dirFilterOf (entryByte p 4) = some filter ∧ outputActionOf p claims = some output ∧
        ((∀ v, previous = some v → v < (p.extractLsb' 0 32).toNat) ∧ (p.extractLsb' 0 32).toNat ≤ limit ∧
          (entryByte p 5).toNat < 64) ∧ point = spelt p filter output := by
  have above : previous.all (· < (p.extractLsb' 0 32).toNat) = true ↔
      ∀ v, previous = some v → v < (p.extractLsb' 0 32).toNat := by
    cases previous <;> simp
  unfold pointOf
  simp only [above, noReservedActions_iff]
  cases dirFilterOf (entryByte p 4) with
  | none => simp
  | some filter =>
    cases outputActionOf p claims with
    | none => simp
    | some output => simp [spelt, eq_comm]

/-- The check of an entry accepts exactly the good ones. -/
theorem entryGood_iff (p : PointEntry) (previous : Option Nat) (limit : Nat) (claims : BitVec 8) :
    EntryGood p previous limit claims ↔ ∃ point, pointOf p previous limit claims = some point := by
  have filtered : (∃ filter, dirFilterOf (entryByte p 4) = some filter) ↔ (entryByte p 4).toNat ≤ 2 := by
    rw [dirFilterOf_eq]
    exact exists_code_iff _ _ _ _
  have acted : (∃ output, outputActionOf p claims = some output) ↔
      ((entryByte p 5).getLsbD 2 = true →
        (entryByte p 6).toNat < 8 ∧ (entryByte p 7).toNat ≤ 2 ∧ claims.getLsbD (entryByte p 6).toNat = true) := by
    simp only [outputActionOf_eq_some_iff]
    cases (entryByte p 5).getLsbD 2 with
    | false => simp
    | true =>
      simp only [Bool.true_eq_false, false_and, false_or, true_and, forall_const]
      rw [← exists_code_iff OutputKind.set .clear .pulse, ← outputKindOf_eq]
      constructor
      · rintro ⟨-, line, kind, -, named, isKind, claimed⟩
        exact ⟨named ▸ line.isLt, ⟨kind, isKind⟩, named ▸ claimed⟩
      · rintro ⟨inRange, ⟨kind, isKind⟩, claimed⟩
        exact ⟨_, ⟨_, inRange⟩, kind, rfl, rfl, isKind, claimed⟩
  have good : EntryGood p previous limit claims ↔
      ((∀ v, previous = some v → v < (p.extractLsb' 0 32).toNat) ∧ (p.extractLsb' 0 32).toNat ≤ limit ∧
        (entryByte p 5).toNat < 64) ∧ (∃ filter, dirFilterOf (entryByte p 4) = some filter) ∧
          ∃ output, outputActionOf p claims = some output := by
    rw [filtered, acted]
    unfold EntryGood
    constructor
    · rintro ⟨above, inLimit, isFilter, clear, isOutput⟩
      exact ⟨⟨above, inLimit, clear⟩, isFilter, isOutput⟩
    · rintro ⟨⟨above, inLimit, clear⟩, isFilter, isOutput⟩
      exact ⟨above, inLimit, isFilter, clear, isOutput⟩
  simp only [good, pointOf_eq_some_iff]
  constructor
  · rintro ⟨value, ⟨filter, isFilter⟩, output, isOutput⟩
    exact ⟨_, filter, output, isFilter, isOutput, value, rfl⟩
  · rintro ⟨point, filter, output, isFilter, isOutput, value, -⟩
    exact ⟨value, ⟨filter, isFilter⟩, output, isOutput⟩

/-- A point that the check accepts is the one that its entry spells. -/
theorem pointOf_speltBy (p : PointEntry) (previous : Option Nat) (limit : Nat) (claims : BitVec 8) (point : Point)
    (accepted : pointOf p previous limit claims = some point) : SpeltBy p point := by
  obtain ⟨filter, output, isFilter, isOutput, -, rfl⟩ := (pointOf_eq_some_iff _ _ _ _ _).mp accepted
  refine ⟨rfl, ?_, rfl, rfl, rfl, rfl, rfl, fun clear => ?_, fun set => ?_⟩
  · rw [dirFilterOf_eq] at isFilter
    exact isFilter.symm
  · obtain ⟨-, absent⟩ | ⟨set, -⟩ := (outputActionOf_eq_some_iff _ _ _).mp isOutput
    · exact absent
    · exact absurd (set.symm.trans clear) (by decide)
  · obtain ⟨clear, -⟩ | ⟨-, line, kind, action, named, isKind, -⟩ := (outputActionOf_eq_some_iff _ _ _).mp isOutput
    · exact absurd (set.symm.trans clear) (by decide)
    · rw [outputKindOf_eq] at isKind
      exact ⟨line, kind, action, named.symm, isKind.symm⟩

/-! ### A whole array (R73) -/

/-- The value of an entry. -/
def entryValue (p : PointEntry) : Nat := (p.extractLsb' 0 32).toNat

/-- Entry `n` of an array passes the checks of R73 against the entry before it, the first against a value given. -/
def GoodAt (limit : Nat) (claims : BitVec 8) (previous : Option Nat) (entries : List PointEntry) (n : Nat) : Prop :=
  ∀ p, entries[n]? = some p →
    EntryGood p (if n = 0 then previous else entries[n - 1]?.map entryValue) limit claims

theorem goodAt_cons_zero (limit : Nat) (claims : BitVec 8) (previous : Option Nat) (p : PointEntry)
    (rest : List PointEntry) :
    GoodAt limit claims previous (p :: rest) 0 ↔ EntryGood p previous limit claims := by
  simp [GoodAt]

theorem goodAt_cons_succ (limit : Nat) (claims : BitVec 8) (previous : Option Nat) (p : PointEntry)
    (rest : List PointEntry) (n : Nat) :
    GoodAt limit claims previous (p :: rest) (n + 1) ↔ GoodAt limit claims (some (entryValue p)) rest n := by
  cases n <;> simp [GoodAt]

/-- What the check of an array makes of it. -/
def CheckedAs (limit : Nat) (claims : BitVec 8) (index : Nat) (previous : Option Nat) (entries : List PointEntry) :
    Except Nat (List Point) → Prop
  | .ok points =>
    (∀ n, GoodAt limit claims previous entries n) ∧ points.map Point.value = entries.map entryValue ∧
      ∀ (n : Nat) (p : PointEntry) (point : Point), entries[n]? = some p → points[n]? = some point → SpeltBy p point
  | .error m =>
    ∃ n, m = index + n ∧ n < entries.length ∧ ¬GoodAt limit claims previous entries n ∧
      ∀ j, j < n → GoodAt limit claims previous entries j

theorem checkPoints_checkedAs (limit : Nat) (claims : BitVec 8) (index : Nat) (previous : Option Nat)
    (entries : List PointEntry) :
    CheckedAs limit claims index previous entries (checkPoints limit claims index previous entries) := by
  induction entries generalizing index previous with
  | nil => exact ⟨fun n => by simp [GoodAt], rfl, by simp⟩
  | cons p rest ih =>
    rw [checkPoints]
    split
    next bad =>
      refine ⟨0, rfl, Nat.succ_pos _, fun good => ?_, fun j before => absurd before (Nat.not_lt_zero j)⟩
      obtain ⟨point, accepted⟩ := (entryGood_iff _ _ _ _).mp ((goodAt_cons_zero ..).mp good)
      exact Option.some_ne_none _ (accepted.symm.trans bad)
    next point accepted =>
      have first : GoodAt limit claims previous (p :: rest) 0 :=
        (goodAt_cons_zero ..).mpr ((entryGood_iff _ _ _ _).mpr ⟨point, accepted⟩)
      have speltFirst := pointOf_speltBy _ _ _ _ _ accepted
      have value : point.value = entryValue p := speltFirst.1
      have later := ih (index + 1) (some point.value)
      split
      next m failed =>
        rw [failed] at later
        obtain ⟨n, rfl, inside, bad, before⟩ := later
        rw [value] at bad before
        refine ⟨n + 1, by omega, Nat.succ_lt_succ inside, fun good => bad ((goodAt_cons_succ ..).mp good), fun j lt => ?_⟩
        cases j with
        | zero => exact first
        | succ j => exact (goodAt_cons_succ ..).mpr (before j (Nat.lt_of_succ_lt_succ lt))
      next points passed =>
        rw [passed] at later
        obtain ⟨good, values, spells⟩ := later
        rw [value] at good
        refine ⟨fun n => ?_, by simp [value, values], fun n q x => ?_⟩
        · cases n with
          | zero => exact first
          | succ n => exact (goodAt_cons_succ ..).mpr (good n)
        · cases n with
          | zero =>
            simp only [List.getElem?_cons_zero, Option.some.injEq]
            rintro rfl rfl
            exact speltFirst
          | succ n => exact spells n q x

/-- Settles O47: what the check makes of an array, from its first entry on. -/
theorem arrayCheckNamesTheFirstBadEntry : Obligations.ArrayCheckNamesTheFirstBadEntry := by
  unfold Obligations.ArrayCheckNamesTheFirstBadEntry
  intro limit claims entries value good
  have checked := checkPoints_checkedAs limit claims 0 none entries
  refine ⟨fun points accepted => ?_, fun n failed => ?_, fun all => ?_⟩
  · rw [accepted] at checked
    exact checked
  · rw [failed] at checked
    obtain ⟨m, same, inside, bad, before⟩ := checked
    obtain rfl : n = m := same.trans (Nat.zero_add m)
    exact ⟨inside, bad, before⟩
  · cases result : checkPoints limit claims 0 none entries with
    | ok points => exact ⟨points, rfl⟩
    | error m =>
      rw [result] at checked
      obtain ⟨n, -, -, bad, -⟩ := checked
      exact absurd (all n) bad

/-! ### The ends of a point fetch (R18, R70, R72 to R74, R138, R139) -/

/-- A fetch of a dropped ring leaves the list and nothing else happens. -/
theorem endFetch_of_orphan (n : Nat) (f : PointFetch) (s : State) (orphan : f.orphan = true) :
    endFetch n f s = { s with fetches := s.fetches.eraseIdx n } := if_pos orphan

/-- What the end of a fetch of a ring that is there leaves: one record at the ring of its reservation, the end of the
stall, and the halt that a refusal causes. -/
def FetchAnswered (n : Nat) (f : PointFetch) (status : Status) (value : Nat) (flags : RecordFlags) (s u : State) : Prop :=
  (u = { s with sessions := u.sessions, jobRings := u.jobRings, reportRings := u.reportRings, fetches := u.fetches } ∧
      u.fetches = s.fetches.eraseIdx n) ∧
    Handed [(f.reportRing,
      ownRecord f.ring f.tag status (BitVec.ofNat 8 f.session.val) (toWord value) flags s)] s u ∧
    ∀ j, u.jobRing j =
      if j = f.ring then
        { s.jobRing j with
          fetchInFlight := false
          state :=
            if status.cls = .refusal ∧ (s.jobRing j).haltFlag = true ∧ (s.jobRing j).state = .running then .halted
            else (s.jobRing j).state }
      else s.jobRing j

/-- The answer and the end of a fetch after a change of sessions only. -/
theorem endFetch_answered (n : Nat) (f : PointFetch) (here : f.orphan = false) (status : Status) (value : Nat)
    (flags : RecordFlags) (s t : State) (frame : t = { s with sessions := t.sessions }) :
    let u := endFetch n f (answer f.ring f.reportRing f.tag
      ⟨status, toByte f.session.val, toWord value, flags, s.stamp⟩ t)
    FetchAnswered n f status value flags s u ∧ u.sessions = t.sessions := by
  intro u
  let v := answer f.ring f.reportRing f.tag ⟨status, toByte f.session.val, toWord value, flags, s.stamp⟩ t
  have ended : u = { v with fetches := v.fetches.eraseIdx n }.updJobRing f.ring fun j => { j with fetchInFlight := false } :=
    if_neg (by rw [here]; decide)
  have rings : OnlyRings t v := answer_onlyRings _ _ _ _ _
  have jobRings (j : JobRingId) : t.jobRing j = s.jobRing j := State.jobRing_congr s t (by rw [frame]) j
  have reportRings (q : ReportRingId) : t.reportRing q = s.reportRing q := State.reportRing_congr s t (by rw [frame]) q
  refine ⟨⟨⟨?_, ?_⟩, fun q => ?_, fun j => ?_⟩, ?_⟩
  · rw [ended, rings, frame]
    rfl
  · rw [ended, rings, frame]
    rfl
  · have record := answer_reportRing f.ring f.reportRing q f.tag
      ⟨status, toByte f.session.val, toWord value, flags, s.stamp⟩ t
    rw [jobRings, reportRings] at record
    rw [ended]
    exact record
  · have answered := answer_jobRing f.ring j f.reportRing f.tag
      ⟨status, toByte f.session.val, toWord value, flags, s.stamp⟩ t
    have marked := State.jobRing_updJobRing { v with fetches := v.fetches.eraseIdx n } f.ring j
      fun x => { x with fetchInFlight := false }
    rw [ended, marked]
    by_cases own : j = f.ring
    · subst own
      rw [if_pos rfl, if_pos rfl]
      show { v.jobRing f.ring with fetchInFlight := false } = _
      rw [answered, if_pos rfl, jobRings, JobRing.afterAnswer]
      split <;> rfl
    · rw [if_neg own, if_neg own]
      exact answered.trans ((if_neg own).trans (jobRings j))
  · rw [ended, rings]
    rfl

/-- The refusal of a fetch of a ring that is there. -/
theorem endFetch_refused (n : Nat) (f : PointFetch) (here : f.orphan = false) (status : Status) (value : Nat)
    (s : State) :
    let u := endFetch n f (fetchRefused f status value s)
    FetchAnswered n f status value {} s u ∧ u.sessions = s.sessions :=
  endFetch_answered n f here status value {} s s rfl

section FetchDone

variable (f : PointFetch) (entries : List PointEntry) (s : State)

theorem fetchDone_of_orphan (orphan : f.orphan = true) : fetchDone f entries s = s := if_pos orphan

variable (here : f.orphan = false)

include here

theorem fetchDone_of_void (isVoid : f.isVoid = true) : fetchDone f entries s = fetchRefused f .wrongState 0 s := by
  simp [fetchDone, here, isVoid]

variable (live : f.isVoid = false)

include live

theorem fetchDone_of_error (index : Nat)
    (failed : checkPoints (s.session f.session).limitValue (s.session f.session).claims 0 none entries = .error index) :
    fetchDone f entries s = fetchRefused f .pointInvalid index s := by
  simp [fetchDone, here, live, failed]

theorem fetchDone_of_ok (points : List Point)
    (passed : checkPoints (s.session f.session).limitValue (s.session f.session).claims 0 none entries = .ok points) :
    fetchDone f entries s =
      answer f.ring f.reportRing f.tag (stagedAnswer f.session (s.session f.session) points.length s.stamp)
        (s.updSession f.session (·.stage points f.mode)) := by
  simp [fetchDone, here, live, passed]

end FetchDone

theorem fetchFailed_of_orphan (f : PointFetch) (entry : Nat) (s : State) (orphan : f.orphan = true) :
    fetchFailed f entry s = s := if_pos orphan

theorem fetchFailed_of_ring (f : PointFetch) (entry : Nat) (s : State) (here : f.orphan = false) :
    fetchFailed f entry s =
      fetchRefused f (if f.isVoid then .wrongState else .fetchError) (if f.isVoid then 0 else entry) s := by
  cases void : f.isVoid <;> simp [fetchFailed, here, void]

section Ends

variable (s : State) (n : Nat) (f : PointFetch) (found : s.fetches[n]? = some f)

include found

theorem exec_pointFetchDone (settled : s.settled) (entries : List PointEntry) (whole : entries.length = f.points) :
    exec (.pointFetchDone n entries) s = .next (endFetch n f (fetchDone f entries s)) := by
  show execPointFetchDone n entries s = _
  simp only [execPointFetchDone, found, if_pos whole, settle_of_settled s settled]

theorem exec_pointFetchDone_of_other (entries : List PointEntry) (other : entries.length ≠ f.points) :
    exec (.pointFetchDone n entries) s = .next s := by
  show execPointFetchDone n entries s = _
  simp only [execPointFetchDone, found, if_neg other]

theorem exec_pointFetchError (settled : s.settled) (entry : Nat) (inside : entry < f.points) :
    exec (.pointFetchError n entry) s = .next (endFetch n f (fetchFailed f entry s)) := by
  show execPointFetchError n entry s = _
  simp only [execPointFetchError, found, if_neg (Nat.not_le.mpr inside), settle_of_settled s settled]

theorem exec_pointFetchError_of_outside (entry : Nat) (outside : f.points ≤ entry) :
    exec (.pointFetchError n entry) s = .next s := by
  show execPointFetchError n entry s = _
  simp only [execPointFetchError, found, if_pos outside]

end Ends

/-- Settles O48: each end of a fetch by what the fetch is and what its array is. -/
theorem pointFetchEndsWithOneAnswer : Obligations.PointFetchEndsWithOneAnswer := by
  unfold Obligations.PointFetchEndsWithOneAnswer
  intro s n f settled found e done frame answers
  refine ⟨fun entries whole => ?_, exec_pointFetchDone_of_other s n f found,
    exec_pointFetchError_of_outside s n f found, fun entry inside => ?_⟩
  · have runs := exec_pointFetchDone s n f found settled entries whole
    refine ⟨fun orphan => ⟨_, runs, ?_⟩, fun here isVoid => ⟨_, runs, ?_⟩, fun here live =>
      ⟨fun index failed => ⟨_, runs, ?_⟩, fun points passed => ⟨_, runs, ?_⟩⟩⟩
    · rw [fetchDone_of_orphan f entries s orphan, endFetch_of_orphan n f s orphan]
    · rw [fetchDone_of_void f entries s here isVoid]
      exact endFetch_refused n f here .wrongState 0 s
    · rw [fetchDone_of_error f entries s here live index failed]
      exact endFetch_refused n f here .pointInvalid index s
    · rw [fetchDone_of_ok f entries s here live points passed]
      obtain ⟨answered, sessions⟩ := endFetch_answered n f here .success points.length
        { replaced := e.staged.isSome } s (s.updSession f.session (·.stage points f.mode)) rfl
      have entry (j : SessionId) := (State.session_congr _ _ sessions j).trans
        (State.session_updSession s f.session j (·.stage points f.mode))
      refine ⟨answered, fun j other => (entry j).trans (if_neg other), ?_⟩
      exact (entry f.session).trans ((if_pos rfl).trans (e.stage_eq points f.mode))
  · have runs := exec_pointFetchError s n f found settled entry inside
    refine ⟨fun orphan => ⟨_, runs, ?_⟩, fun here => ⟨_, runs, ?_⟩⟩
    · rw [fetchFailed_of_orphan f entry s orphan, endFetch_of_orphan n f s orphan]
    · rw [fetchFailed_of_ring f entry s here]
      exact endFetch_refused n f here _ _ s

end Sys2Proof.Machine

/-!
PROOFS. The waits of a session that an event has changed first, said once; STOP (R11), AWAIT (R98 to R101), CANCEL_WAIT (R109)
and the timeout of a wait (R107).
-/

namespace Sys2Proof.Machine

/-! ### Waits that end after a change of their session (R97, R106, R108) -/

/-- An event that changes a session's entry, but not its wait list, and then ends waits of the session by their
conditions. -/
theorem completeWaits_after_update (choose : WaitCond → Option Status) (k : SessionId) (f : Session → Session)
    (t : State) (agree : t.WaitsAgree) (lists : (f (t.session k)).waits = (t.session k).waits)
    (states : (f (t.session k)).state = .free → (t.session k).state = .free) :
    let ends : WaitEntry → Option Status := fun e => choose e.cond
    let u := completeWaits k choose (t.updSession k f)
    RecordFrame t u ∧ OtherSessionsKept k t u ∧
      u.session k = { f (t.session k) with waits := keptWaits ends k t } ∧
      WaitsEnded ends k t u ∧ Handed (waitRecords ends k (f (t.session k)).count t) t u := by
  intro ends u
  have entry (j : SessionId) := State.session_updSession t k j f
  have changed : (t.updSession k f).WaitsAgree := by
    refine agree.of_fewer_free (fun _ => rfl) (fun j => ?_) fun j isFree => ?_
    · rw [entry]
      split
      next own => rw [lists, own]
      next => rfl
    · rw [entry] at isFree
      split at isFree
      next own => exact own ▸ states isFree
      next => exact isFree
  obtain ⟨frame, others, session, wait, records⟩ := completeWaits_completed choose k _ changed
  rw [diff_ended_eq_keptWaits _ _ _ (changed.2.1 k).1] at session
  have kept : keptWaits ends k (t.updSession k f) = keptWaits ends k t := by
    simp only [keptWaits, entry, if_pos, lists]
    rfl
  rw [entry, if_pos rfl, lists] at wait records
  refine ⟨(recordFrame_updSession t k f).trans frame, fun j other => ?_, ?_, wait, records⟩
  · exact (others j other).trans ((entry j).trans (if_neg other))
  · exact session.trans (by rw [kept, entry, if_pos rfl])

/-- An event that ends every wait leaves the session none. -/
theorem keptWaits_eq_nil (ends : WaitEntry → Option Status) (k : SessionId) (t : State) (agree : t.WaitsAgree)
    (all : ∀ e, (ends e).isSome = true) : keptWaits ends k t = [] := by
  refine List.filter_eq_nil_iff.mpr fun w listed => ?_
  obtain ⟨e, found, -⟩ := (agree.1 k w).mp listed
  simp [endsWait, found, all]

theorem endedIdle_eq_idleEnds (other : Status) :
    (fun e : WaitEntry => WaitCond.endedIdle other e.cond) = idleEnds other := by
  funext e
  unfold idleEnds
  cases e.cond <;> simp [WaitCond.endedIdle]

theorem idleEnds_isSome (other : Status) (e : WaitEntry) : (idleEnds other e).isSome = true := by
  unfold idleEnds
  split <;> rfl

/-! ### STOP (R5, R11) -/

/-- Settles O21: the STOP of an IDLE session, and of one whose window and waits it ends. -/
theorem stopEndsMeasuring : Obligations.StopEndsMeasuring := by
  unfold Obligations.StopEndsMeasuring
  intro w s r k reaches agree t e ends own
  have runs : exec (.stopJob w) s = .next (stopBody r k w t) :=
    congrArg Host.Outcome.next (withTaken_workJob stopBody w s r k reaches)
  have agrees : t.WaitsAgree := agree.recordArrives r
  have live : e.state ≠ .free := reaches.2.2.2.1
  clear_value t
  refine ⟨fun idle => ?_, fun measuring => ?_⟩
  · have body : stopBody r k w t = reply r w .success e.count t := if_pos idle
    refine ⟨_, runs.trans (congrArg _ body), answer_onlyRings _ _ _ _ _, ?_⟩
    exact answerNow_answered r w .success w.session (toWord e.count) {} t
  · obtain ⟨frame, others, session, ended, records⟩ := completeWaits_after_update
      (WaitCond.endedIdle .sessionStopped) k Session.stopped t agrees rfl nofun
    rw [endedIdle_eq_idleEnds] at session ended records
    rw [keptWaits_eq_nil _ k t agrees (idleEnds_isSome _)] at session
    have body : stopBody r k w t = reply r w .success e.count
        (completeWaits k (WaitCond.endedIdle .sessionStopped) (t.updSession k Session.stopped)) := if_neg measuring
    obtain ⟨handed, halted⟩ := reply_after_records r w .success e.count _ t _ frame records
    refine ⟨_, runs.trans (congrArg _ body), reply_onlyTablesAndWaits r w .success _ t _ frame, fun j other => ?_, ?_,
      fun x => ?_, handed, halted⟩
    · exact (answer_session _ _ _ _ _ j).trans (others j other)
    · exact (answer_session _ _ _ _ _ k).trans session
    · exact (answer_wait _ _ _ _ _ x).trans (ended x)

/-! ### AWAIT (R96, R98 to R101) -/

theorem timed_iff (mode : Option Mode) :
    mode.any (·.isTimed) = true ↔ mode = some .rate ∨ mode = some .span ∨ mode = some .interval := by
  rcases mode with _ | m
  · simp
  · cases m <;> simp [Mode.isTimed]

/-- The direction of a REACH wait by its number (R176). -/
theorem dirFilterOf_of_le (b : Byte) (inRange : b.toNat ≤ 2) :
    dirFilterOf b = some (if b.toNat = 0 then .up else if b.toNat = 1 then .down else .either) := by
  rw [dirFilterOf_eq]
  generalize b.toNat = n at inRange
  rcases n with _ | _ | _ | n
  · rfl
  · rfl
  · rfl
  · omega

theorem dirFilterOf_eq_none (b : Byte) (outside : ¬b.toNat ≤ 2) : dirFilterOf b = none := by
  rw [dirFilterOf_eq]
  exact List.getElem?_eq_none (Nat.not_le.mp outside)

/-- The model's reading of the condition is the one stated by its codes (R98). -/
theorem awaitCond_eq_askedFor (w : JobRecord) (e : Session) :
    awaitCond w e.limitValue (e.mode.any (·.isTimed)) = askedFor w e := by
  unfold awaitCond askedFor
  simp only [timed_iff]
  split
  next reach =>
    by_cases direction : (w.byte 9).toNat ≤ 2
    · simp [reach, dirFilterOf_of_le _ direction, direction]
    · simp [reach, dirFilterOf_eq_none _ direction, direction]
  next atLeast => simp [atLeast]
  next atMost => simp [atMost]
  next windows =>
    simp only [windows, OfNat.ofNat_ne_zero, false_and, if_false, OfNat.ofNat_ne_one, true_and, Nat.reduceEqDiff]
    exact if_congr (by tauto) rfl rfl
  next idle => simp [idle]
  next not0 not1 not2 not3 not4 =>
    rw [if_neg fun h => not0 h.1, if_neg fun h => not1 h.1, if_neg fun h => not2 h.1, if_neg fun h => not3 h.1,
      if_neg fun h => not4 h]

theorem holdsAtTake_eq (e : Session) (c : WaitCond) : c.metAtEntry e.count e.state = holdsAtTake e c := by
  cases c <;> rfl

/-- The lowest-numbered free entry is the free one below which every entry is outstanding. -/
theorem freeEntry_eq_some (t : State) (x : WaitId) (isFree : t.wait x = none) (below : ∀ y, y < x → t.wait y ≠ none) :
    t.freeEntry = some x := by
  unfold State.freeEntry allWaits
  rw [List.find?_eq_some_iff_getElem]
  refine ⟨by simp [isFree], x.val, by simp, by simp, fun j lt => ?_⟩
  simp only [List.getElem_finRange, Bool.not_eq_true', Option.isNone_eq_false_iff, Option.isSome_iff_ne_none]
  exact below _ lt

theorem freeEntry_eq_none (t : State) (full : ∀ x, t.wait x ≠ none) : t.freeEntry = none := by
  simp [State.freeEntry, allWaits, List.find?_eq_none, full]

theorem exists_freeEntry (t : State) (room : ¬∀ x, t.wait x ≠ none) : ∃ x, t.freeEntry = some x := by
  rw [← Option.isSome_iff_exists, State.freeEntry, List.find?_isSome]
  push Not at room
  obtain ⟨x, isFree⟩ := room
  exact ⟨x, List.mem_finRange x, by simp [isFree]⟩

section Await

variable (r : JobRingId) (k : SessionId) (w : JobRecord) (t : State)

theorem awaitBody_of_badParam (bad : askedFor w (t.session k) = none) :
    awaitBody r k w t = reply r w .badParam 0 t := by
  simp only [awaitBody, awaitCond_eq_askedFor, bad]

variable (c : WaitCond) (asked : askedFor w (t.session k) = some c)

include asked

theorem awaitBody_of_noRoom (noRoom : 8 ≤ (t.session k).waits.length ∨ ∀ x, t.wait x ≠ none) :
    awaitBody r k w t = reply r w .noWaitSpace (t.session k).waits.length t := by
  simp only [awaitBody, awaitCond_eq_askedFor, asked]
  by_cases many : 8 ≤ (t.session k).waits.length
  · exact if_pos many
  · rw [freeEntry_eq_none t (noRoom.resolve_left many)]
    exact if_neg many

theorem awaitBody_of_room (few : (t.session k).waits.length < 8) (x : WaitId) (lowest : t.freeEntry = some x) :
    awaitBody r k w t =
      if holdsAtTake (t.session k) c = true then reply r w .metAtEntry (t.session k).count t
      else takeWait r k w c x t := by
  simp only [awaitBody, awaitCond_eq_askedFor, asked, lowest, holdsAtTake_eq]
  exact if_neg (Nat.not_le.mpr few)

end Await

/-- Settles O28: the refusals in their order, the condition that holds at the take, and the entry that is taken. -/
theorem awaitTakesTheLowestEntry : Obligations.AwaitTakesTheLowestEntry := by
  unfold Obligations.AwaitTakesTheLowestEntry
  intro w s r k reaches t e o noRoom
  have runs : o = .next (awaitBody r k w t) := congrArg Host.Outcome.next (withTaken_workJob awaitBody w s r k reaches)
  rw [runs]
  clear_value t
  refine ⟨fun bad => ?_, fun c asked => ⟨fun full => ?_, fun room holds => ?_, fun x few isFree below open_cond => ?_⟩⟩
  · rw [awaitBody_of_badParam r k w t bad]
    exact reply_refused r w .badParam 0 t rfl
  · rw [awaitBody_of_noRoom r k w t c asked full]
    exact reply_refused r w .noWaitSpace e.waits.length t rfl
  · obtain ⟨few, free⟩ := not_or.mp room
    obtain ⟨x, lowest⟩ := exists_freeEntry t free
    have body := awaitBody_of_room r k w t c asked (Nat.not_le.mp few) x lowest
    rw [if_pos holds] at body
    refine ⟨_, congrArg _ body, answer_onlyRings _ _ _ _ _, ?_⟩
    exact answerNow_answered r w .metAtEntry w.session (toWord e.count) {} t
  · have body := awaitBody_of_room r k w t c asked few x (freeEntry_eq_some t x isFree below)
    rw [if_neg (by rw [open_cond]; decide)] at body
    have entry (j : SessionId) : (takeWait r k w c x t).session j =
        if j = k then { e with waits := e.waits ++ [x] } else t.session j :=
      State.session_updSession (t.setWait x (some (newWait r k w c t))) k j _
    refine ⟨_, congrArg _ body, rfl, fun j other => (entry j).trans (if_neg other), (entry k).trans (if_pos rfl),
      fun y => ?_⟩
    exact State.wait_setWait t x y (some (newWait r k w c t))

/-! ### CANCEL_WAIT (R109) -/

/-- Cancelling a list of different waits of one session completes each of them, in list order. -/
theorem cancelList_completed (ends : WaitEntry → Option Status) (k : SessionId) (l : List WaitId) (s : State)
    (distinct : l.Nodup)
    (own : ∀ w ∈ l, ∃ e, s.wait w = some e ∧ e.session = k ∧ ends e = some .cancelled) :
    WaitsCompleted ends k l s (cancelList l s) := by
  induction l generalizing s with
  | nil => exact .nil _ k s
  | cons w rest ih =>
    obtain ⟨fresh, distinct⟩ := List.nodup_cons.mp distinct
    obtain ⟨e, found, mine, ended⟩ := own w (by simp)
    refine .cons_ended found mine ended fresh (ih _ distinct fun x hx => ?_)
    rw [completeWait, completeWaitAt_wait, if_neg (ne_of_mem_of_not_mem hx fresh)]
    exact own x (by simp [hx])

/-- Of a list, only the waits that the event ends matter. -/
theorem WaitsCompleted.of_filter {ends : WaitEntry → Option Status} {k : SessionId} {l : List WaitId} {s u : State}
    (done : WaitsCompleted ends k (l.filter (endsWait ends s)) s u) : WaitsCompleted ends k l s u := by
  obtain ⟨frame, others, session, wait, records⟩ := done
  refine ⟨frame, others, ?_, fun x => ?_, ?_⟩
  · simpa only [List.filter_filter, Bool.and_self] using session
  · rw [wait]
    exact if_congr (by simp [List.mem_filter]) rfl rfl
  · have silent : ∀ x, endsWait ends s x = false → waitRecord ends k (s.session k).count s x = none := by
      intro x
      cases found : s.wait x with
      | none => simp [waitRecord, found]
      | some e => simp [waitRecord, endsWait, found]
    have same : (l.filter (endsWait ends s)).filterMap (waitRecord ends k (s.session k).count s) =
        l.filterMap (waitRecord ends k (s.session k).count s) := by
      rw [List.filterMap_filter]
      refine List.filterMap_congr fun x _ => ?_
      cases ended : endsWait ends s x with
      | true => rfl
      | false => exact (silent x ended).symm
    rw [← same]
    exact records

/-- The waits that a CANCEL_WAIT of a ring with a target tag ends (R109). -/
def cancelEnds (r : JobRingId) (tag : BitVec 16) (e : WaitEntry) : Option Status :=
  if e.tag = tag ∧ e.ring = r then some .cancelled else none

theorem cancelTargets_eq (r : JobRingId) (tag : BitVec 16) (t : State) (l : List WaitId) :
    cancelTargets r tag t l = l.filter (endsWait (cancelEnds r tag) t) := by
  refine List.filter_congr fun w _ => ?_
  cases found : t.wait w with
  | none => simp [endsWait, found]
  | some e => by_cases target : e.tag = tag ∧ e.ring = r <;>
      simp only [endsWait, found, cancelEnds, Option.any_some, ← Bool.decide_and, target, if_false] <;> rfl

/-- Settles O29: the targets complete in list order, and the job's own record comes last. -/
theorem cancelWaitCancelsByTag : Obligations.CancelWaitCancelsByTag := by
  unfold Obligations.CancelWaitCancelsByTag
  intro w s r k reaches agree t e ends n
  have runs : exec (.cancelWait w) s = .next (cancelWaitBody r k w t) :=
    congrArg Host.Outcome.next (withTaken_workJob cancelWaitBody w s r k reaches)
  obtain ⟨listed, sizes, -⟩ : t.WaitsAgree := agree.recordArrives r
  clear_value t
  have targets : cancelTargets r (w.half 8) t e.waits = e.waits.filter (endsWait ends t) := cancelTargets_eq r _ t _
  have body : cancelWaitBody r k w t =
      reply r w .success n (cancelList (e.waits.filter (endsWait ends t)) t) := by
    unfold cancelWaitBody
    dsimp only
    rw [targets]
  have done : WaitsCompleted ends k e.waits t (cancelList (e.waits.filter (endsWait ends t)) t) := by
    refine .of_filter (cancelList_completed ends k _ t ((sizes k).1.filter _) fun x hx => ?_)
    obtain ⟨inList, ended⟩ := List.mem_filter.mp hx
    obtain ⟨y, found, own⟩ := (listed k x).mp inList
    refine ⟨y, found, own, ?_⟩
    simp only [endsWait, found, Option.any_some, ends] at ended ⊢
    split at ended
    next target => exact if_pos target
    next => cases ended
  obtain ⟨frame, others, session, wait, records⟩ := done
  rw [diff_ended_eq_keptWaits _ _ _ (sizes k).1] at session
  obtain ⟨handed, halted⟩ := reply_after_records r w .success n _ t _ frame records
  refine ⟨_, runs.trans (congrArg _ body), reply_onlyTablesAndWaits r w .success n t _ frame, fun j other => ?_, ?_,
    fun x => ?_, handed, halted⟩
  · exact (answer_session _ _ _ _ _ j).trans (others j other)
  · exact (answer_session _ _ _ _ _ k).trans session
  · exact (answer_wait _ _ _ _ _ x).trans (wait x)

/-! ### WAIT_TIMEOUT (R41, R107) -/

theorem recordFrame_completeWaitAt (w : WaitId) (status : Status) (stamp : Word32) (s : State) :
    RecordFrame s (completeWaitAt w status stamp s) := by
  unfold completeWaitAt
  split
  · rfl
  · exact (recordFrame_freeWait w s).trans (recordFrame_handJob _ _ _)

/-- Settles O30: an entry without an expiry is kept, and one that expires completes with the stamp of its deadline. -/
theorem waitTimeoutAnswersTimeout : Obligations.WaitTimeoutAnswersTimeout := by
  unfold Obligations.WaitTimeoutAnswersTimeout
  refine ⟨fun s x no_expiry => ?_, fun s x e deadline settled found expired stamped => ?_⟩
  · show execWaitTimeout x s = _
    unfold execWaitTimeout
    split
    next => rfl
    next e found =>
      split
      next deadline expired stamped =>
        obtain runs | unstamped := no_expiry e found
        · exact absurd expired runs
        · exact absurd (stamped.symm.trans unstamped) (by simp)
      next => rfl
  · have runs : exec (.waitTimeout x) s = .next (completeWaitAt x .timeout deadline s) := by
      show execWaitTimeout x s = _
      simp only [execWaitTimeout, found, expired, stamped, settle_of_settled s settled]
    have entry (i : SessionId) := completeWaitAt_session x .timeout deadline s e found i
    exact ⟨_, runs, recordFrame_completeWaitAt x .timeout deadline s, fun j other => (entry j).trans (if_neg other),
      (entry e.session).trans (if_pos rfl), fun y => completeWaitAt_wait x y .timeout deadline s,
      fun q => completeWaitAt_reportRing x .timeout deadline s e found q⟩

end Sys2Proof.Machine

/-!
PROOFS. A step of a session, whole (R28 to R30): the stepped entry, the hit, the actions of the hit point, the waits that the
step and then ZERO meet, and the note of a window end.
-/

namespace Sys2Proof.Machine

/-! ### The stepped entry (R28, R29, R77) -/

theorem stepCount_snd (dir : Direction) (count limit : Nat) :
    (stepCount dir count limit).2 = true ↔ Wraps dir count limit := by
  cases dir with
  | up =>
    simp only [stepCount, Wraps]
    split
    next below => simpa using below
    next above => simpa using above
  | down =>
    simp only [stepCount, Wraps]
    split
    next positive => simpa using Nat.ne_of_gt positive
    next zero => simpa using zero

/-- A commit at a moment changes the lists of points only. -/
theorem Session.commitAt_eq (mode : CommitMode) (e : Session) :
    e.commitAt mode = { e with active := (listsAt mode e).1, staged := (listsAt mode e).2 } := by
  obtain none_staged | ⟨st, staged⟩ := Option.eq_none_or_eq_some e.staged
  · simp only [Session.commitAt, listsAt, none_staged]
    rw [← none_staged]
  · simp only [Session.commitAt, listsAt, staged]
    split
    · exact e.commit_of_staged st staged
    · rw [← staged]

theorem Session.steppedAndCommitted_of_wraps (e : Session) (dir : Direction) (wraps : Wraps dir e.count e.limitValue) :
    e.steppedAndCommitted dir =
      { e with
        count := countAfter dir e.count e.limitValue
        wraps := min (e.wraps + 1) 65535
        wrappedFlag := e.wrappedFlag || e.windowOpen
        active := (listsAt .atWrap e).1, staged := (listsAt .atWrap e).2 } := by
  have isWrap := (stepCount_snd dir e.count e.limitValue).mpr wraps
  rw [Session.steppedAndCommitted, if_pos isWrap, Session.commitAt_eq]
  simp only [Session.stepped, isWrap, stepCount_fst, satInc_eq_min, if_true, Bool.true_and]
  rfl

theorem Session.steppedAndCommitted_of_not_wraps (e : Session) (dir : Direction)
    (stays : ¬Wraps dir e.count e.limitValue) :
    e.steppedAndCommitted dir = { e with count := countAfter dir e.count e.limitValue } := by
  have noWrap : (stepCount dir e.count e.limitValue).2 = false :=
    Bool.eq_false_iff.mpr (mt (stepCount_snd dir e.count e.limitValue).mp stays)
  simp only [Session.steppedAndCommitted, Session.stepped, noWrap, stepCount_fst, Bool.false_and, Bool.or_false,
    Bool.false_eq_true, if_false]

/-! ### The hit (R61) -/

theorem DirFilter.passes_iff (f : DirFilter) (dir : Direction) :
    f.passes dir = true ↔ f = .either ∨ (f = .up ↔ dir = .up) := by
  cases f <;> cases dir <;> simp [DirFilter.passes]

/-- The point of a list that a step may hit. -/
def Hits (count : Nat) (dir : Direction) (p : Point) : Prop :=
  p.value = count ∧ (p.filter = .either ∨ (p.filter = .up ↔ dir = .up))

theorem findHit_cons (count : Nat) (dir : Direction) (index : Nat) (p : Point) (rest : List Point) :
    (Hits count dir p → findHit count dir index (p :: rest) = some (index, p)) ∧
      (¬Hits count dir p → findHit count dir index (p :: rest) = findHit count dir (index + 1) rest) := by
  have hits : (p.value = count ∧ p.filter.passes dir = true) ↔ Hits count dir p := by
    rw [DirFilter.passes_iff]
    rfl
  simp only [findHit]
  exact ⟨fun h => if_pos (hits.mpr h), fun h => if_neg (mt hits.mp h)⟩

theorem findHit_eq_none_iff (count : Nat) (dir : Direction) (index : Nat) (l : List Point) :
    findHit count dir index l = none ↔ ∀ p ∈ l, ¬Hits count dir p := by
  induction l generalizing index with
  | nil => simp [findHit]
  | cons p rest ih =>
    obtain ⟨hit, pass⟩ := findHit_cons count dir index p rest
    by_cases h : Hits count dir p
    · simp [hit h, h]
    · simp [pass h, h, ih]

/-- In a list of distinct values the hit is the one point at the count that the direction passes. -/
theorem findHit_eq_some_iff (count : Nat) (dir : Direction) (index : Nat) (l : List Point)
    (rising : l.Pairwise (fun p q => p.value < q.value)) (n : Nat) (p : Point) :
    findHit count dir index l = some (n, p) ↔ ∃ m, n = index + m ∧ l[m]? = some p ∧ Hits count dir p := by
  induction l generalizing index with
  | nil => simp [findHit]
  | cons q rest ih =>
    obtain ⟨above, rising⟩ := List.pairwise_cons.mp rising
    obtain ⟨hit, pass⟩ := findHit_cons count dir index q rest
    by_cases h : Hits count dir q
    · rw [hit h]
      constructor
      · intro same
        obtain ⟨rfl, rfl⟩ := Prod.mk.inj (Option.some.inj same)
        exact ⟨0, rfl, rfl, h⟩
      · rintro ⟨m, rfl, found, hits⟩
        cases m with
        | zero =>
          obtain rfl : q = p := Option.some.inj found
          rfl
        | succ m =>
          have later := above p (List.mem_of_getElem? found)
          exact absurd (h.1.trans hits.1.symm) (Nat.ne_of_lt later)
    · rw [pass h, ih (index + 1) rising]
      constructor
      · rintro ⟨m, rfl, found, hits⟩
        exact ⟨m + 1, by omega, found, hits⟩
      · rintro ⟨m, rfl, found, hits⟩
        cases m with
        | zero =>
          obtain rfl : q = p := Option.some.inj found
          exact absurd hits h
        | succ m => exact ⟨m, by omega, found, hits⟩

theorem findHit_eq_iff_hitBy (count : Nat) (dir : Direction) (l : List Point) (hit : Option (Nat × Point))
    (rising : l.Pairwise (fun p q => p.value < q.value)) : findHit count dir 0 l = hit ↔ HitBy l count dir hit := by
  rcases hit with _ | ⟨n, p⟩
  · exact findHit_eq_none_iff count dir 0 l
  · rw [findHit_eq_some_iff count dir 0 l rising]
    simp only [Nat.zero_add, exists_eq_left']
    rfl

/-! ### The actions of a point as the step runs them (R62 to R68) -/

/-- The actions that a step runs: those of the point it hits. -/
def hitActs : Option (Nat × Point) → Actions
  | none => {}
  | some (_, p) => p.actions

/-- The point index of the POINT record. -/
def hitIndex : Option (Nat × Point) → Nat
  | none => 0
  | some (n, _) => n

/-- A step that hits nothing runs no action, and so has the form of one that hits. -/
theorem stepSession_eq (i : SessionId) (dir : Direction) (s : State) :
    let t := s.updSession i (·.steppedAndCommitted dir)
    let count := (t.session i).count
    let hit := findHit count dir 0 (t.session i).active
    stepSession i dir s =
      noteWindowEnd i count (lateActions i (hitActs hit)
        (meetWaits i (WaitCond.metByStep count dir) (hitActions i dir (hitIndex hit) (hitActs hit) t))) := by
  intro t count hit
  show (match hit with | none => _ | some (index, point) => _) = _
  rcases hit with _ | ⟨n, p⟩ <;> rfl

/-- Only session entries and report rings differ: what the record of a session can reach. -/
def TableFrame (s t : State) : Prop := t = { s with sessions := t.sessions, reportRings := t.reportRings }

theorem tableFrame_postRecord (i : SessionId) (kind : UnsolicitedKind) (status : Status) (index value : Nat)
    (flags : RecordFlags) (s : State) : TableFrame s (postRecord i kind status index value flags s) := by
  unfold postRecord
  dsimp only
  repeat' split
  all_goals rfl

theorem TableFrame.wait {s t : State} (h : TableFrame s t) (x : WaitId) : t.wait x = s.wait x :=
  State.wait_congr s t (by rw [h]) x

theorem TableFrame.output {s t : State} (h : TableFrame s t) (l : OutputId) : t.output l = s.output l :=
  State.output_congr s t (by rw [h]) l

theorem TableFrame.recordFrame {s t : State} (h : TableFrame s t) : RecordFrame s t := by
  unfold RecordFrame
  rw [h]

/-- The entry after step 3 of R30; `lost` is its lost count after the POINT record. -/
def Session.afterHit (e : Session) (a : Actions) (stamp : Word32) (lost : Nat) : Session :=
  { e with
    capture := if a.latch then { valid := true, value := e.count, stamp } else e.capture
    seq := if a.report then e.seq + 1 else e.seq
    lost := if a.report then lost else e.lost
    marksOut := if a.pace = true ∧ e.followers ≠ [] then e.marksOut ++ [e.followers] else e.marksOut }

theorem OutputLine.apply_eq_actedOn (o : OutputLine) (kind : OutputKind) (width : Option Nat) :
    o.apply kind (width.getD 0) = actedOn o kind width := by
  cases kind <;> rfl

theorem State.setSession_self (s : State) (i : SessionId) : s.setSession i (s.session i) = s := by
  have same : s.sessions.set i.val (s.session i) = s.sessions := Vector.set_getElem_self ..
  unfold State.setSession
  rw [same]

/-- A REPORT action, or none: the POINT record at the session's ring and in its counters (R64). -/
theorem reportStage_result (i : SessionId) (dir : Direction) (index : Nat) (report : Bool) (t : State) :
    let e := t.session i
    let point := nextRecord i .point .success index e.count { down := decide (dir = .down) } t
    let u := if report then reportAction i dir index t else t
    TableFrame t u ∧
      (∀ j, u.session j =
        if j = i then { e with seq := if report then e.seq + 1 else e.seq
                               lost := if report then lostAfterOffer i e point t.reportRing else e.lost }
        else t.session j) ∧
      ∀ q, u.reportRing q = if report then offeredRing i e point q (t.reportRing q) else t.reportRing q := by
  cases report with
  | true =>
    obtain ⟨rings, sessions⟩ := postRecord_eq i .point .success index (t.session i).count
      { down := decide (dir = .down) } t
    exact ⟨tableFrame_postRecord i _ _ _ _ _ t, sessions, rings⟩
  | false =>
    refine ⟨rfl, fun j => ?_, fun _ => rfl⟩
    show t.session j = if j = i then t.session i else t.session j
    split
    next own => rw [own]
    next => rfl

/-- An OUTPUT action, or none, at its line (R65). -/
theorem outputStage_output (i : SessionId) (action : Option (OutputId × OutputKind)) (t : State) (l : OutputId) :
    (match action with | none => t | some (m, kind) => outputAction i m kind t).output l =
      match action with
      | none => t.output l
      | some (m, kind) => if m = l then actedOn (t.output l) kind (t.session i).pulseWidth else t.output l := by
  rcases action with _ | ⟨m, kind⟩
  · rfl
  · show (t.setOutput m _).output l = _
    rw [State.output_setOutput, OutputLine.apply_eq_actedOn]
    by_cases own : l = m
    · simp [own]
    · simp [own, Ne.symm own]

theorem outputStage_frame (i : SessionId) (action : Option (OutputId × OutputKind)) (t : State) :
    let u := match action with | none => t | some (m, kind) => outputAction i m kind t
    u = { t with outputs := u.outputs } := by
  rcases action with _ | ⟨m, kind⟩ <;> rfl

/-- A PACE action, or none: the marks of one event behind those still out (R66). -/
theorem paceStage_session (i j : SessionId) (pace : Bool) (t : State) :
    (if pace then handMarks i t else t).session j =
      if j = i then
        { t.session i with
          marksOut := if pace = true ∧ (t.session i).followers ≠ [] then
            (t.session i).marksOut ++ [(t.session i).followers] else (t.session i).marksOut }
      else t.session j := by
  by_cases own : j = i
  · subst own
    cases pace with
    | true =>
      rw [if_pos rfl, if_pos rfl, handMarks_session]
      by_cases followers : (t.session j).followers = []
      · rw [if_neg fun h => h.2 followers, if_neg fun h => h.2 followers]
      · rw [if_pos ⟨rfl, followers⟩, if_pos ⟨rfl, followers⟩]
    | false => simp
  · cases pace with
    | true => simp [own, handMarks_session]
    | false => simp [own]

/-- Step 3 of R30: LATCH, REPORT, OUTPUT and PACE, each at what it is about. -/
theorem hitActions_result (i : SessionId) (dir : Direction) (index : Nat) (a : Actions) (t : State) :
    let e := t.session i
    let point := nextRecord i .point .success index e.count { down := decide (dir = .down) } t
    let u := hitActions i dir index a t
    (∀ j, u.session j =
        if j = i then e.afterHit a t.stamp (lostAfterOffer i e point t.reportRing) else t.session j) ∧
      (∀ x, u.wait x = t.wait x) ∧
      (∀ q, u.reportRing q = if a.report then offeredRing i e point q (t.reportRing q) else t.reportRing q) ∧
      ∀ l, u.output l =
        match a.output with
        | none => t.output l
        | some (m, kind) => if m = l then actedOn (t.output l) kind e.pulseWidth else t.output l := by
  intro e point u
  let captured : Session :=
    { e with capture := if a.latch then { valid := true, value := e.count, stamp := t.stamp } else e.capture }
  let latched := t.setSession i captured
  let reported := if a.report then reportAction i dir index latched else latched
  let acted := match a.output with | none => reported | some (m, kind) => outputAction i m kind reported
  have latch : (if a.latch then latchAction i t else t) = latched := by
    cases set : a.latch with
    | true => simp only [latched, captured, set, if_true]; rfl
    | false =>
      simp only [latched, captured, set, Bool.false_eq_true, if_false]
      exact (t.setSession_self i).symm
  have paced : u = if a.pace then handMarks i acted else acted := by
    simp only [u, hitActions, latch]
    rfl
  have own : latched.session i = captured := State.session_setSession_same t i captured
  obtain ⟨frame, sessions, rings⟩ := reportStage_result i dir index a.report latched
  rw [own] at sessions rings
  have actedFrame : acted = { reported with outputs := acted.outputs } := outputStage_frame i a.output reported
  have acted_session (j : SessionId) : acted.session j = reported.session j :=
    State.session_congr reported acted (by rw [actedFrame]) j
  have paced_frame : u = { acted with sessions := u.sessions } := by
    rw [paced]
    cases a.pace <;> rfl
  have record : nextRecord i .point .success index captured.count { down := decide (dir = .down) } latched = point := by
    rw [nextRecord, own]
    rfl
  rw [record] at sessions rings
  refine ⟨fun j => ?_, fun x => ?_, fun q => ?_, fun l => ?_⟩
  · rw [paced, paceStage_session, acted_session, acted_session, sessions, sessions, if_pos rfl]
    split
    · rfl
    next other => exact State.session_setSession_ne t i j captured other
  · have same : acted.wait x = reported.wait x := State.wait_congr reported acted (by rw [actedFrame]) x
    exact (State.wait_congr acted u (by rw [paced_frame]) x).trans (same.trans (frame.wait x))
  · have same : acted.reportRing q = reported.reportRing q :=
      State.reportRing_congr reported acted (by rw [actedFrame]) q
    exact (State.reportRing_congr acted u (by rw [paced_frame]) q).trans (same.trans (rings q))
  · have width : (reported.session i).pulseWidth = e.pulseWidth := by rw [sessions, if_pos rfl]
    have acts := outputStage_output i a.output reported l
    rw [width, frame.output] at acts
    exact (State.output_congr acted u (by rw [paced_frame]) l).trans acts

/-! ### The waits that a step meets, and those that ZERO meets after it (R30, R103) -/

theorem stepEnds_eq_metByStep (count : Nat) (dir : Direction) (e : WaitEntry) :
    (if WaitCond.metByStep count dir e.cond then some Status.success else none) = stepEnds count dir e := by
  unfold stepEnds
  cases e.cond with
  | reach v f =>
    simp only [WaitCond.metByStep, Bool.and_eq_true, decide_eq_true_eq, DirFilter.passes_iff, @eq_comm _ count v]
  | _ => simp [WaitCond.metByStep]

/-- What two events end one after the other: the second what the first has left. -/
def eitherEnds (first second : WaitEntry → Option Status) (e : WaitEntry) : Option Status :=
  (first e).or (if (first e).isSome then none else second e)

theorem eitherEnds_isSome (first second : WaitEntry → Option Status) (e : WaitEntry) :
    (eitherEnds first second e).isSome = ((first e).isSome || (second e).isSome) := by
  unfold eitherEnds
  cases first e <;> simp

section TwoEvents

variable {first second : WaitEntry → Option Status} {k : SessionId} {s t : State} (pool : WaitsEnded first k s t)

include pool

theorem wait_of_kept {w : WaitId} (kept : w ∈ keptWaits first k s) : t.wait w = s.wait w := by
  obtain ⟨listed, stays⟩ := List.mem_filter.mp kept
  have stays : endsWait first s w = false := by simpa using stays
  exact (pool w).trans (if_neg fun ⟨_, ended⟩ => absurd (stays.symm.trans ended) (by decide))

theorem endsWait_of_kept {w : WaitId} (kept : w ∈ keptWaits first k s) :
    endsWait second t w = endsWait (eitherEnds first second) s w := by
  have stays : endsWait first s w = false := by simpa using (List.mem_filter.mp kept).2
  unfold endsWait at stays ⊢
  rw [wait_of_kept pool kept]
  cases found : s.wait w with
  | none => rfl
  | some e =>
    simp only [found, Option.any_some] at stays ⊢
    rw [eitherEnds_isSome, stays, Bool.false_or]

variable (list : (t.session k).waits = keptWaits first k s)

include list

theorem keptWaits_second : keptWaits second k t = keptWaits (eitherEnds first second) k s := by
  have both : (keptWaits first k s).filter (fun w => !endsWait second t w) =
      (keptWaits first k s).filter (fun w => !endsWait (eitherEnds first second) s w) :=
    List.filter_congr fun w kept => by rw [endsWait_of_kept pool kept]
  unfold keptWaits at both ⊢
  rw [list, keptWaits, both, List.filter_filter]
  refine List.filter_congr fun w _ => ?_
  unfold endsWait
  cases s.wait w with
  | none => rfl
  | some e =>
    simp only [Option.any_some, eitherEnds_isSome]
    cases (first e).isSome <;> simp

/-- The records of the second event, by the state before the first. -/
theorem waitRecords_second (count : Nat) (frame : EventFrame s t) :
    waitRecords second k count t =
      waitRecords (fun e => if (first e).isSome then none else second e) k count s := by
  have same : ∀ w ∈ keptWaits first k s, waitRecord second k count t w = waitRecord second k count s w := by
    intro w kept
    simp only [waitRecord, wait_of_kept pool kept, frame.jobRing, frame.stamp]
  rw [waitRecords_eq, waitRecords_eq, list, List.filterMap_congr same, keptWaits, List.filterMap_filter]
  refine List.filterMap_congr fun w _ => ?_
  unfold endsWait waitRecord
  cases s.wait w with
  | none => simp
  | some e => cases ended : first e <;> simp [ended]

theorem waitsEnded_second {u : State} (later : WaitsEnded second k t u) :
    WaitsEnded (eitherEnds first second) k s u := by
  intro w
  rw [later w, list]
  by_cases kept : w ∈ keptWaits first k s
  · have listed := (List.mem_filter.mp kept).1
    rw [endsWait_of_kept pool kept, wait_of_kept pool kept]
    simp only [kept, listed, true_and]
  · rw [if_neg fun h => kept h.1, pool w]
    by_cases listed : w ∈ (s.session k).waits
    · have ended : endsWait first s w = true := by
        by_contra stays
        exact kept (List.mem_filter.mpr ⟨listed, by simpa using stays⟩)
      have either : endsWait (eitherEnds first second) s w = true := by
        unfold endsWait at ended ⊢
        cases found : s.wait w with
        | none => simp [found] at ended
        | some e =>
          simp only [found, Option.any_some] at ended ⊢
          rw [eitherEnds_isSome, ended, Bool.true_or]
      rw [if_pos ⟨listed, ended⟩, if_pos ⟨listed, either⟩]
    · rw [if_neg fun h => listed h.1, if_neg fun h => listed h.1]

end TwoEvents

/-! ### The whole step (R30) -/

/-- Step 4 of R30 after the actions of the hit: the waits that the step meets, with the stepped count. -/
theorem meetWaits_result (k : SessionId) (count : Nat) (dir : Direction) (t : State) (agree : t.WaitsAgree) :
    let ends := stepEnds count dir
    let u := meetWaits k (WaitCond.metByStep count dir) t
    RecordFrame t u ∧ OtherSessionsKept k t u ∧
      u.session k = { t.session k with waits := keptWaits ends k t } ∧
      WaitsEnded ends k t u ∧ Handed (waitRecords ends k (t.session k).count t) t u := by
  have done := completeWaits_completed (fun c => if WaitCond.metByStep count dir c then some .success else none) k t agree
  simp only [stepEnds_eq_metByStep] at done
  obtain ⟨frame, others, session, wait, records⟩ := done
  rw [diff_ended_eq_keptWaits _ _ _ (agree.2.1 k).1] at session
  exact ⟨frame, others, session, wait, records⟩

/-- The entry after step 6 of R30: HOST joins with a HOLD action (R44, R68). -/
def Session.heldBy (e : Session) (hold : Bool) : Session :=
  { e with
    hold := { e.hold with host := e.hold.host || hold }
    partialFlag := e.partialFlag || (hold && !e.hold.host && e.windowOpen) }

theorem Session.heldBy_eq (e : Session) (hold : Bool) : e.heldBy hold = if hold then e.joinHost else e := by
  cases hold with
  | true =>
    rw [if_pos rfl, e.joinHost_eq, Session.heldBy, Bool.or_true, Bool.true_and, Bool.and_comm]
  | false => simp [Session.heldBy]

/-- The waits that ZERO ends, of those there are: none without it. -/
def zeroing (zero : Bool) (e : WaitEntry) : Option Status := if zero then changeEnds 0 e else none

theorem keptWaits_of_none (k : SessionId) (t : State) : keptWaits (fun _ => none) k t = (t.session k).waits := by
  refine List.filter_eq_self.mpr fun w _ => ?_
  cases found : t.wait w <;> simp [endsWait, found]

theorem waitRecords_of_none (k : SessionId) (count : Nat) (t : State) : waitRecords (fun _ => none) k count t = [] := by
  refine List.filterMap_eq_nil_iff.mpr fun w _ => ?_
  cases t.wait w <;> rfl

/-- Steps 5 and 6 of R30: ZERO with the waits that it meets, then HOLD. -/
theorem lateActions_result (k : SessionId) (a : Actions) (t : State) (agree : t.WaitsAgree) :
    let e := t.session k
    let u := lateActions k a t
    RecordFrame t u ∧ OtherSessionsKept k t u ∧
      u.session k =
        Session.heldBy { e with count := if a.zero then 0 else e.count, waits := keptWaits (zeroing a.zero) k t } a.hold ∧
      WaitsEnded (zeroing a.zero) k t u ∧ Handed (waitRecords (zeroing a.zero) k 0 t) t u := by
  intro e u
  let zeroed := if a.zero then changeCount k 0 t else t
  have zero : RecordFrame t zeroed ∧ OtherSessionsKept k t zeroed ∧
      zeroed.session k = { e with count := if a.zero then 0 else e.count, waits := keptWaits (zeroing a.zero) k t } ∧
      WaitsEnded (zeroing a.zero) k t zeroed ∧ Handed (waitRecords (zeroing a.zero) k 0 t) t zeroed := by
    cases set : a.zero with
    | true =>
      simp only [zeroed, set, if_true]
      exact changeCount_completed k 0 t agree
    | false =>
      have nothing : zeroing false = fun _ => none := rfl
      rw [nothing, keptWaits_of_none, waitRecords_of_none]
      simp only [zeroed, set, Bool.false_eq_true, if_false]
      refine ⟨.refl t, fun _ _ => rfl, rfl, fun w => ?_, fun q => (handedRing_nil _ _).symm⟩
      exact (if_neg fun h => by cases found : t.wait w <;> simp [endsWait, found] at h).symm
  obtain ⟨frame, others, session, ended, records⟩ := zero
  have held : u = zeroed.updSession k (·.heldBy a.hold) := by
    simp only [State.updSession, Session.heldBy_eq]
    cases set : a.hold with
    | true => exact if_pos set
    | false => exact (if_neg (by rw [set]; decide)).trans (zeroed.setSession_self k).symm
  have entry (j : SessionId) := State.session_updSession zeroed k j (·.heldBy a.hold)
  rw [held]
  refine ⟨frame.trans (recordFrame_updSession zeroed k _), fun j other => ?_, ?_, ended, records⟩
  · exact (entry j).trans ((if_neg other).trans (others j other))
  · rw [entry, if_pos rfl, session]

/-- The entry after the note of an INTERVAL window end (R30, R54; log 11). -/
def Session.noted (e : Session) (count : Nat) : Session :=
  { e with
    windowEndDue := e.windowEndDue ||
      decide (e.mode = some .interval ∧ e.windowSource = some .own ∧ e.windowLength = some count) }

theorem noteWindowEnd_eq (k : SessionId) (count : Nat) (t : State) :
    noteWindowEnd k count t = t.updSession k (·.noted count) := by
  have reached (e : Session) : e.reachedWindowEnd count =
      decide (e.mode = some .interval ∧ e.windowSource = some .own ∧ e.windowLength = some count) := by
    simp [Session.reachedWindowEnd, Bool.and_assoc]
  unfold noteWindowEnd
  cases due : (t.session k).reachedWindowEnd count with
  | true =>
    rw [if_pos rfl]
    simp only [State.updSession, Session.noted, ← reached, due, Bool.or_true]
  | false =>
    rw [if_neg (by decide)]
    simp only [State.updSession, Session.noted, ← reached, due, Bool.or_false]
    exact (t.setSession_self k).symm

theorem RecordFrame.output {s t : State} (h : RecordFrame s t) (l : OutputId) : t.output l = s.output l :=
  State.output_congr s t (by rw [h]) l

theorem RecordFrame.eventFrame {s t : State} (h : RecordFrame s t) : EventFrame s t := by
  unfold EventFrame
  rw [h]

theorem Session.steppedAndCommitted_keeps_record (e : Session) (dir : Direction) :
    (e.steppedAndCommitted dir).seq = e.seq ∧ (e.steppedAndCommitted dir).lost = e.lost := by
  by_cases wraps : Wraps dir e.count e.limitValue
  · rw [e.steppedAndCommitted_of_wraps dir wraps]
    exact ⟨rfl, rfl⟩
  · rw [e.steppedAndCommitted_of_not_wraps dir wraps]
    exact ⟨rfl, rfl⟩

theorem keptWaits_congr (ends : WaitEntry → Option Status) (k : SessionId) {s t : State}
    (list : (t.session k).waits = (s.session k).waits) (pool : ∀ x, t.wait x = s.wait x) :
    keptWaits ends k t = keptWaits ends k s := by
  unfold keptWaits endsWait
  simp only [list, pool]

theorem waitRecords_congr (ends : WaitEntry → Option Status) (k : SessionId) (count : Nat) {s t : State}
    (list : (t.session k).waits = (s.session k).waits) (pool : ∀ x, t.wait x = s.wait x) (frame : EventFrame s t) :
    waitRecords ends k count t = waitRecords ends k count s := by
  unfold waitRecords
  simp only [list, pool, frame.jobRing, frame.stamp]

theorem waitsEnded_congr (ends : WaitEntry → Option Status) (k : SessionId) {s t u : State}
    (list : (t.session k).waits = (s.session k).waits) (pool : ∀ x, t.wait x = s.wait x)
    (ended : WaitsEnded ends k t u) : WaitsEnded ends k s u := by
  intro w
  rw [ended w, list, pool]
  unfold endsWait
  rw [pool]

/-- A step, whole: `e` is the stepped entry, and the hit is that of its list. -/
theorem stepSession_result (i : SessionId) (dir : Direction) (s : State) (agree : s.WaitsAgree) (e : Session)
    (entry : (s.session i).steppedAndCommitted dir = e) (hit : Option (Nat × Point))
    (isHit : findHit e.count dir 0 e.active = hit) :
    let a := hitActs hit
    let point := nextRecord i .point .success (hitIndex hit) e.count { down := decide (dir = .down) } s
    let first := stepEnds e.count dir
    let ends := eitherEnds first (zeroing a.zero)
    let records := waitRecords first i e.count s ++
      waitRecords (fun x => if (first x).isSome then none else zeroing a.zero x) i 0 s
    let u := stepSession i dir s
    OtherSessionsKept i s u ∧
      u.session i = Session.noted (Session.heldBy
        { e.afterHit a s.stamp (lostAfterOffer i e point s.reportRing) with
          count := if a.zero then 0 else e.count, waits := keptWaits ends i s } a.hold) e.count ∧
      WaitsEnded ends i s u ∧
      (∀ q, u.reportRing q = handedRing records q
        (if a.report then offeredRing i e point q (s.reportRing q) else s.reportRing q)) ∧
      ∀ l, u.output l =
        match a.output with
        | none => s.output l
        | some (m, kind) => if m = l then actedOn (s.output l) kind e.pulseWidth else s.output l := by
  intro a point first ends records u
  let t := s.updSession i (·.steppedAndCommitted dir)
  have stepped (j : SessionId) : t.session j = if j = i then e else s.session j :=
    (State.session_updSession s i j _).trans (by rw [entry])
  have own : t.session i = e := (stepped i).trans (if_pos rfl)
  have tame : Tame (s.session i) e := entry ▸ tame_steppedAndCommitted _ dir
  have agreeT : t.WaitsAgree :=
    (effects_updSession (guard := False) s i (·.steppedAndCommitted dir) nofun
      (tame_steppedAndCommitted _ dir)).waitsAgree agree
  have whole : u = noteWindowEnd i e.count (lateActions i a
      (meetWaits i (WaitCond.metByStep e.count dir) (hitActions i dir (hitIndex hit) a t))) := by
    have eq := stepSession_eq i dir s
    dsimp only at eq
    rw [show (s.updSession i (·.steppedAndCommitted dir)).session i = e from own, isHit] at eq
    exact eq
  have pointT : nextRecord i .point .success (hitIndex hit) e.count { down := decide (dir = .down) } t = point := by
    obtain ⟨seq, lost⟩ := (s.session i).steppedAndCommitted_keeps_record dir
    rw [entry] at seq lost
    simp only [nextRecord, own, point, seq, lost]
    rfl
  obtain ⟨hitSession, hitWait, hitRings, hitOutput⟩ := hitActions_result i dir (hitIndex hit) a t
  rw [own] at hitSession hitRings hitOutput
  rw [pointT] at hitSession hitRings
  let acted := hitActions i dir (hitIndex hit) a t
  have agreeA : acted.WaitsAgree := (effects_hitActions (guard := False) i dir _ a t nofun).waitsAgree agreeT
  have ownA : acted.session i = e.afterHit a s.stamp (lostAfterOffer i e point s.reportRing) :=
    (hitSession i).trans (if_pos rfl)
  have frameA : EventFrame s acted := (eventFrame_updSession s i _).trans (eventFrame_hitActions i dir _ a t)
  have listA : (acted.session i).waits = (s.session i).waits := (congrArg Session.waits ownA).trans tame.waits
  obtain ⟨frameM, othersM, sessionM, endedM, recordsM⟩ := meetWaits_result i e.count dir acted agreeA
  let met := meetWaits i (WaitCond.metByStep e.count dir) acted
  have agreeM : met.WaitsAgree := (effects_meetWaits (guard := False) i _ acted).waitsAgree agreeA
  have countA : (acted.session i).count = e.count := by rw [ownA]; rfl
  rw [countA, waitRecords_congr first i e.count listA hitWait frameA] at recordsM
  rw [keptWaits_congr first i listA hitWait, ownA] at sessionM
  have poolM : WaitsEnded first i s met := waitsEnded_congr first i listA hitWait endedM
  have listM : (met.session i).waits = keptWaits first i s := congrArg Session.waits sessionM
  obtain ⟨frameL, othersL, sessionL, endedL, recordsL⟩ := lateActions_result i a met agreeM
  rw [waitRecords_second poolM listM 0 (frameA.trans frameM.eventFrame)] at recordsL
  rw [keptWaits_second poolM listM, sessionM] at sessionL
  have poolL := waitsEnded_second poolM listM endedL
  rw [whole, noteWindowEnd_eq]
  refine ⟨fun j other => ?_, ?_, poolL, fun q => ?_, fun l => ?_⟩
  · rw [State.session_updSession, if_neg other]
    exact (othersL j other).trans ((othersM j other).trans ((hitSession j).trans
      ((if_neg other).trans ((stepped j).trans (if_neg other)))))
  · rw [State.session_updSession, if_pos rfl]
    exact congrArg (·.noted e.count) sessionL
  · refine (recordsL q).trans ?_
    rw [recordsM q, handedRing_append]
    exact congrArg (fun x => handedRing _ q (handedRing _ q x)) (hitRings q)
  · exact (frameL.output l).trans ((frameM.output l).trans (hitOutput l))

/-- The stepped entry of a session whose count is within its limit, whether or not the step wraps. -/
theorem Session.steppedAndCommitted_eq (e : Session) (dir : Direction) (inLimit : e.count ≤ e.limitValue) :
    let wraps := match dir with | .up => decide (e.count = e.limitValue) | .down => decide (e.count = 0)
    let lists := if wraps then listsAt .atWrap e else (e.active, e.staged)
    e.steppedAndCommitted dir =
      { e with
        count := match dir with
          | .up => if wraps then 0 else e.count + 1
          | .down => if wraps then e.limitValue else e.count - 1
        wraps := if wraps then min (e.wraps + 1) 65535 else e.wraps
        wrappedFlag := e.wrappedFlag || (wraps && e.windowOpen)
        active := lists.1, staged := lists.2 } := by
  intro wraps lists
  have count : countAfter dir e.count e.limitValue =
      match dir with
      | .up => if wraps then 0 else e.count + 1
      | .down => if wraps then e.limitValue else e.count - 1 := by
    cases dir with
    | up =>
      simp only [countAfter, wraps, decide_eq_true_eq]
      split <;> split <;> omega
    | down =>
      simp only [countAfter, wraps, decide_eq_true_eq]
      split <;> split <;> omega
  have isWrap : wraps = true ↔ Wraps dir e.count e.limitValue := by
    cases dir with
    | up =>
      simp only [wraps, Wraps, decide_eq_true_eq]
      omega
    | down => simp [wraps, Wraps]
  by_cases wrapped : Wraps dir e.count e.limitValue
  · rw [e.steppedAndCommitted_of_wraps dir wrapped, count]
    simp only [lists, isWrap.mpr wrapped, if_true, Bool.true_and]
  · have stays : wraps = false := Bool.eq_false_iff.mpr (mt isWrap.mp wrapped)
    rw [e.steppedAndCommitted_of_not_wraps dir wrapped, count]
    simp only [lists, stays, Bool.false_eq_true, if_false, Bool.false_and, Bool.or_false]

/-- Settles O44: the entry, the hit, and the effects of the step on everything that it reaches. -/
theorem stepEffectsInOrder : Obligations.StepEffectsInOrder := by
  unfold Obligations.StepEffectsInOrder
  refine ⟨fun e limit isLimit => by rw [Session.limitValue, isLimit]; rfl,
    fun e dir => ⟨e.steppedAndCommitted_of_wraps dir, e.steppedAndCommitted_of_not_wraps dir⟩,
    fun list count dir hit rising => findHit_eq_iff_hitBy count dir list hit rising, ?_⟩
  intro s i dir hit inRange agree e wraps count lists has point offered zero ends isHit u
  let e' : Session :=
    { e with
      count := count
      wraps := if wraps then min (e.wraps + 1) 65535 else e.wraps
      wrappedFlag := e.wrappedFlag || (wraps && e.windowOpen)
      active := lists.1, staged := lists.2 }
  have entry : e.steppedAndCommitted dir = e' := e.steppedAndCommitted_eq dir (inRange.1 i).1
  have rising : lists.1.Pairwise (fun p q => p.value < q.value) := by
    obtain ⟨-, -, -, -, -, ⟨-, rising, -⟩, -⟩ := (tame_steppedAndCommitted e dir).inRange (inRange.1 i)
    rw [entry] at rising
    exact rising
  have isFound : findHit count dir 0 lists.1 = hit := (findHit_eq_iff_hitBy count dir lists.1 hit rising).mpr isHit
  obtain ⟨others, session, ended, records, outputs⟩ := stepSession_result i dir s agree e' entry hit isFound
  have isZero : (hitActs hit).zero = zero := by cases hit <;> rfl
  have isReport : (hitActs hit).report = has Actions.report := by cases hit <;> rfl
  have bothEnd : eitherEnds (stepEnds e'.count dir) (zeroing zero) = ends := by
    funext x
    show eitherEnds (stepEnds count dir) (zeroing zero) x = ends x
    simp only [ends, eitherEnds, zeroing, zeroEnds]
    cases zero with
    | true => rfl
    | false => cases stepEnds count dir x <;> rfl
  have bothRecords :
      waitRecords (fun x => if (stepEnds e'.count dir x).isSome then none else zeroing zero x) i 0 s =
        if zero then waitRecords (zeroEnds count dir) i 0 s else [] := by
    cases zero with
    | true => rfl
    | false =>
      refine (congrArg (fun f => waitRecords f i 0 s) ?_).trans (waitRecords_of_none i 0 s)
      funext x
      cases stepEnds e'.count dir x <;> rfl
  rw [isZero, bothEnd] at session ended
  refine ⟨eventFrame_stepSession i dir s, others, ?_, ended, fun q => ?_, fun l => ?_⟩
  · refine session.trans ?_
    rcases hit with _ | ⟨n, p⟩ <;> rfl
  · refine (records q).trans ?_
    rw [isZero, isReport, bothRecords]
    rcases hit with _ | ⟨n, p⟩ <;> rfl
  · refine (outputs l).trans ?_
    rcases hit with _ | ⟨n, p⟩ <;> rfl

/-- Settles O45: a step that hits nothing runs no action, so its effects are the stepped entry and the waits it meets. -/
theorem stepsMeetWaitsInListOrder : Obligations.StepsMeetWaitsInListOrder := by
  unfold Obligations.StepsMeetWaitsInListOrder
  intro s i dir agree e count u noHit
  let e' := e.steppedAndCommitted dir
  have countE : e'.count = count := e.steppedAndCommitted_count dir
  obtain ⟨others, session, ended, records, outputs⟩ := stepSession_result i dir s agree e' rfl _ rfl
  have active : (u.session i).active = e'.active := by
    rw [session]
    rfl
  have missed : findHit e'.count dir 0 e'.active = none := by
    rw [active] at noHit
    rw [countE]
    exact (findHit_eq_none_iff count dir 0 e'.active).mpr noHit
  rw [missed] at session ended records outputs
  have stepOnly : eitherEnds (stepEnds e'.count dir) (zeroing (hitActs none).zero) = stepEnds count dir := by
    rw [countE]
    funext x
    unfold eitherEnds
    cases stepEnds count dir x <;> rfl
  have noMore : waitRecords
      (fun x => if (stepEnds e'.count dir x).isSome then none else zeroing (hitActs none).zero x) i 0 s = [] := by
    refine (congrArg (fun f => waitRecords f i 0 s) ?_).trans (waitRecords_of_none i 0 s)
    funext x
    cases stepEnds e'.count dir x <;> rfl
  rw [stepOnly] at session ended
  refine ⟨ended, by rw [session]; rfl, fun q => ?_, (eventFrame_stepSession i dir s).jobRings, others, ?_⟩
  · refine (records q).trans ?_
    rw [noMore, List.append_nil, countE]
    rfl
  · refine Vector.ext fun l inside => ?_
    exact outputs ⟨l, inside⟩

end Sys2Proof.Machine

/-!
PROOFS. The pair sample of a QUAD session with its fault (R13, R24 to R26).
-/

namespace Sys2Proof.Machine

theorem State.setSession_twice (s : State) (i : SessionId) (e e' : Session) :
    (s.setSession i e).setSession i e' = s.setSession i e' := by
  simp [State.setSession]

/-- A session counts when it is ACTIVE with an empty hold set (R2). -/
theorem Session.counts_iff (e : Session) : e.counts = true ↔ e.state = .active ∧ e.hold = {} := by
  simp [Session.counts, HoldSet.isEmpty_iff]

/-! ### Waits that end after other effects at their session (R97, R106, R108) -/

/-- Waits that complete at `v`, by the state `t` before effects that have left the wait list and the pool alone. -/
theorem completeWaits_since (choose : WaitCond → Option Status) (k : SessionId) {t v : State} (agree : v.WaitsAgree)
    (frame : EventFrame t v) (list : (v.session k).waits = (t.session k).waits) (pool : ∀ x, v.wait x = t.wait x) :
    let ends : WaitEntry → Option Status := fun e => choose e.cond
    let u := completeWaits k choose v
    RecordFrame v u ∧ OtherSessionsKept k v u ∧ u.session k = { v.session k with waits := keptWaits ends k t } ∧
      WaitsEnded ends k t u ∧ Handed (waitRecords ends k (v.session k).count t) v u := by
  intro ends u
  obtain ⟨frame', others, session, wait, records⟩ := completeWaits_completed choose k v agree
  rw [diff_ended_eq_keptWaits _ _ _ (agree.2.1 k).1, keptWaits_congr ends k list pool] at session
  rw [← waitRecords_eq, waitRecords_congr ends k _ list pool frame] at records
  exact ⟨frame', others, session, waitsEnded_congr ends k list pool wait, records⟩

theorem endedFault_eq_faultEnds : (fun e : WaitEntry => WaitCond.endedFault e.cond) = faultEnds := by
  funext e
  unfold faultEnds
  cases e.cond <;> simp [WaitCond.endedFault]

/-- A fault: the entry is FAULTED, the NOTICE goes out, and then the waits end (R13). -/
theorem faultSession_result (i : SessionId) (t : State) (agree : t.WaitsAgree) :
    let e := t.session i
    let notice := nextRecord i .notice .illegalStep 0 e.count {} t
    let u := faultSession i t
    u = { t with sessions := u.sessions, waits := u.waits, reportRings := u.reportRings } ∧ OtherSessionsKept i t u ∧
      u.session i =
        { e with
          state := .faulted, faultCause := some .illegalStep, seq := e.seq + 1
          lost := lostAfterOffer i e notice t.reportRing, waits := keptWaits faultEnds i t } ∧
      WaitsEnded faultEnds i t u ∧
      ∀ q, u.reportRing q =
        handedRing (waitRecords faultEnds i e.count t) q (offeredRing i e notice q (t.reportRing q)) := by
  intro e notice u
  let faulted : Session := { e with state := .faulted, faultCause := some .illegalStep }
  let s1 := t.setSession i faulted
  have own1 : s1.session i = faulted := State.session_setSession_same t i faulted
  have agree1 : s1.WaitsAgree :=
    agree.of_fewer_free (fun _ => rfl)
      (fun j => by
        rw [State.session_setSession]
        split
        next own => rw [own]
        next => rfl)
      fun j isFree => by
        rw [State.session_setSession] at isFree
        split at isFree
        next => cases isFree
        next => exact isFree
  let s2 := postRecord i .notice .illegalStep 0 e.count {} s1
  have runs : u = completeWaits i WaitCond.endedFault s2 := by
    change completeWaits i _ (postRecord i _ _ 0 (s1.session i).count {} s1) = _
    rw [own1]
  have record : nextRecord i .notice .illegalStep 0 e.count {} s1 = notice := by
    rw [nextRecord, own1]
    rfl
  obtain ⟨rings, sessions⟩ := postRecord_eq i .notice .illegalStep 0 e.count {} s1
  rw [record, own1] at rings sessions
  have frame2 : TableFrame s1 s2 := tableFrame_postRecord i _ _ _ _ _ s1
  have own2 : s2.session i = { faulted with seq := e.seq + 1, lost := lostAfterOffer i e notice t.reportRing } :=
    (sessions i).trans (if_pos rfl)
  obtain ⟨frame, others, session, ended, records⟩ := completeWaits_since WaitCond.endedFault i
    (t := t) (v := s2) (agree1.postRecord i _ _ _ _ _)
    ((eventFrame_setSession t i faulted).trans frame2.recordFrame.eventFrame) (by rw [own2]) frame2.wait
  rw [← runs, endedFault_eq_faultEnds] at session ended records
  rw [own2] at session records
  rw [← runs] at frame others
  have recordFrame : RecordFrame t u :=
    (recordFrame_updSession t i fun _ => faulted).trans (frame2.recordFrame.trans frame)
  refine ⟨recordFrame, fun j other => ?_, session, ended, fun q => ?_⟩
  · exact (others j other).trans ((sessions j).trans ((if_neg other).trans
      (State.session_setSession_ne t i j faulted other)))
  · exact (records q).trans (congrArg (handedRing _ q) (rings q))

/-! ### The pair sample (R24 to R26) -/

/-- The step that a quarter transition is at a resolution (R25). -/
theorem Resolution.takes_iff (r : Resolution) (aChanged b : Bool) :
    r.takes aChanged b = true ↔ r = .x4 ∨ (r = .x2 ∧ aChanged = true) ∨ (r = .x1 ∧ aChanged = true ∧ b = false) := by
  cases r <;> simp [Resolution.takes]

/-- The direction of a quarter transition by the cycle (0,0), (1,0), (1,1), (0,1) (R25). -/
theorem transitionDirection_eq (a0 b0 a1 b1 : Bool) (quarter : (a0 ≠ a1 ∧ b0 = b1) ∨ (a0 = a1 ∧ b0 ≠ b1)) :
    transitionDirection (decide (a0 ≠ a1)) a1 b1 =
      if ((a0, b0), (a1, b1)) ∈
          [((false, false), (true, false)), ((true, false), (true, true)), ((true, true), (false, true)),
           ((false, true), (false, false))] then .up else .down := by
  revert a0 b0 a1 b1
  decide

section PairSample

variable (s : State) (i : SessionId) (a b : LineId) (a0 b0 : Bool)
  (lineA : (s.session i).lineA = some a) (lineB : (s.session i).lineB = some b)

include lineA lineB

/-- The state in which the reference has taken the levels. -/
theorem pairRef_taken : s.updSession i (fun x => { x with pairRef := pairLevels (s.session i) s }) =
    s.setSession i { s.session i with pairRef := some (s.level a, s.level b) } := by
  simp only [State.updSession, pairLevels, lineA, lineB]

theorem pairSample_of_not_counting (idle : (s.session i).counts = false) :
    pairSample i s = s.setSession i { s.session i with pairRef := some (s.level a, s.level b) } := by
  rw [← pairRef_taken s i a b lineA lineB]
  simp [pairSample, idle]

variable (counts : (s.session i).counts = true) (reference : (s.session i).pairRef = some (a0, b0))

include counts reference

/-- What a counting session makes of a pair sample, by the levels that changed. -/
theorem pairSample_of_counting :
    let t := s.setSession i { s.session i with pairRef := some (s.level a, s.level b) }
    pairSample i s =
      if a0 ≠ s.level a ∧ b0 ≠ s.level b then illegalStep i t
      else if a0 = s.level a ∧ b0 = s.level b then t
      else if (s.session i).resolution.any (·.takes (decide (a0 ≠ s.level a)) (s.level b)) then
        stepSession i (transitionDirection (decide (a0 ≠ s.level a)) (s.level a) (s.level b)) t
      else t := by
  have levels : pairLevels (s.session i) s = some (s.level a, s.level b) := by simp only [pairLevels, lineA, lineB]
  intro t
  have taken := pairRef_taken s i a b lineA lineB
  simp only [pairSample, counts, if_true, reference, levels] at taken ⊢
  rw [taken]

end PairSample

/-- Settles O42: the sample of a session that does not count, and the four outcomes of one that does. -/
theorem pairSamplesStepOrAreIllegal : Obligations.PairSamplesStepOrAreIllegal := by
  unfold Obligations.PairSamplesStepOrAreIllegal
  intro s i a b a0 b0 e a1 b1 t u lineA lineB reference
  refine ⟨fun idle => ?_, fun active empty => ?_⟩
  · exact pairSample_of_not_counting s i a b lineA lineB (Bool.eq_false_iff.mpr (mt e.counts_iff.mp idle))
  have sampled := pairSample_of_counting s i a b a0 b0 lineA lineB (e.counts_iff.mpr ⟨active, empty⟩) reference
  have illegal (changedA : a0 ≠ a1) (changedB : b0 ≠ b1) : u = illegalStep i t := sampled.trans (if_pos ⟨changedA, changedB⟩)
  let counted : Session := { e with pairRef := some (a1, b1), illegal := min (e.illegal + 1) 65535 }
  have counting : t.updSession i (fun e => { e with illegal := satInc e.illegal }) = s.setSession i counted := by
    have own : t.session i = { e with pairRef := some (a1, b1) } := State.session_setSession_same s i _
    simp only [State.updSession, own, t, State.setSession_twice, satInc_eq_min]
    rfl
  have isCounted : (s.setSession i counted).session i = counted := State.session_setSession_same s i counted
  refine ⟨fun sameA sameB => ?_, fun changedA changedB tally => ?_, fun changedA changedB faults agree => ?_,
    fun r resolution quarter => ?_⟩
  · exact sampled.trans ((if_neg fun h => h.1 sameA).trans (if_pos ⟨sameA, sameB⟩))
  · rw [illegal changedA changedB, illegalStep]
    simp only [counting]
    exact if_neg (by rw [isCounted]; exact tally)
  · have faulted : u = faultSession i (s.setSession i counted) := by
      rw [illegal changedA changedB, illegalStep]
      simp only [counting]
      exact if_pos (by rw [isCounted]; exact faults)
    have kept : EventFrame s (s.setSession i counted) := eventFrame_setSession s i counted
    have list : ((s.setSession i counted).session i).waits = (s.session i).waits := by
      rw [isCounted]
    have pool (x : WaitId) : (s.setSession i counted).wait x = s.wait x := rfl
    have agree' : (s.setSession i counted).WaitsAgree :=
      agree.updSession i
        (fun x => { x with pairRef := counted.pairRef, illegal := counted.illegal }) (fun _ => rfl) (fun _ => rfl)
    obtain ⟨frame, others, session, ended, records⟩ := faultSession_result i _ agree'
    have record : nextRecord i .notice .illegalStep 0 counted.count {} (s.setSession i counted) =
        nextRecord i .notice .illegalStep 0 e.count {} s := by
      rw [nextRecord, isCounted]
      rfl
    rw [isCounted, record, keptWaits_congr faultEnds i list pool] at session
    rw [isCounted, record, waitRecords_congr faultEnds i counted.count list pool kept] at records
    rw [← faulted] at frame others session ended records
    refine ⟨frame, fun j other => (others j other).trans (State.session_setSession_ne s i j counted other), session,
      waitsEnded_congr faultEnds i list pool ended, records⟩
  · have changed : ¬(a0 ≠ a1 ∧ b0 ≠ b1) := by tauto
    have same : ¬(a0 = a1 ∧ b0 = b1) := by tauto
    have taken : u = _ := sampled.trans ((if_neg changed).trans (if_neg same))
    intro steps up
    have direction := transitionDirection_eq a0 b0 a1 b1 quarter
    have takes : e.resolution.any (·.takes (decide (a0 ≠ a1)) b1) = true ↔ steps := by
      rw [resolution, Option.any_some, Resolution.takes_iff, decide_eq_true_iff]
    rw [taken, ← direction]
    exact if_congr takes rfl rfl

end Sys2Proof.Machine

/-!
PROOFS. The queue and the reset (R169; log 6, log 27, log 29).
-/

namespace Sys2Proof.Machine

/-! ### The queue over every form of a command's effect (log 27) -/

theorem postRingNotice_pending (status : Status) (value : Word32) (t : State) :
    (postRingNotice status value t).pending = t.pending := by
  unfold postRingNotice
  dsimp only
  repeat' split
  all_goals rfl

theorem answer_pending (r : JobRingId) (report : ReportRingId) (tag : BitVec 16) (a : Answer) (t : State) :
    (answer r report tag a t).pending = t.pending := by
  rw [answer_onlyRings]

theorem CloseFrame.pending {s t : State} (h : CloseFrame s t) : t.pending = s.pending := by
  rw [h]

theorem cascade_pending (q : ReportRingId) (tag : BitVec 16) (t : State) : (cascade q tag t).pending = t.pending := by
  have dropped (rings : List JobRingId) : (cascadeDropRings rings t).pending = t.pending := by
    rw [cascadeDropRings_frame]
  exact (answer_pending _ _ _ _ _).trans ((closeAllQuietly_frame _ _).pending.trans (dropped _))

theorem dropUnused_pending (q : ReportRingId) (tag : BitVec 16) (t : State) :
    (dropUnused q tag t).pending = t.pending := answer_pending _ _ _ _ _

theorem endFetch_pending (n : Nat) (f : PointFetch) (t : State) : (endFetch n f t).pending = t.pending := by
  unfold endFetch
  dsimp only
  split <;> rfl

theorem fetchDone_pending (f : PointFetch) (entries : List PointEntry) (t : State) :
    (fetchDone f entries t).pending = t.pending := by
  unfold fetchDone
  dsimp only
  repeat' split
  · rfl
  all_goals exact answer_pending _ _ _ _ _

theorem fetchFailed_pending (f : PointFetch) (entry : Nat) (t : State) : (fetchFailed f entry t).pending = t.pending := by
  unfold fetchFailed
  repeat' split
  · rfl
  all_goals exact answer_pending _ _ _ _ _

theorem qualifiedEdges_pending (lines : BitVec 16) (order : List Delivery) (t : State) :
    (qualifiedEdges lines order t).pending = t.pending := by
  refine (eventFrame_handEdges lines order _).pending.trans ?_
  rw [acceptLines_frame]

theorem JobDone.pending {guard : Prop} {r : JobRingId} {t u : State} (done : JobDone guard r t u) :
    u.pending = t.pending := by
  cases done with
  | effects run => exact run.frame.pending
  | opened k w setup isFree asked passes => rw [configure_frame]
  | closed k live => exact (closeSession_frame effects_closeWaits k t).pending
  | lineSet l inverted width wide narrow =>
    exact (setUpLine_effects (guard := False) l inverted width t).frame.pending
  | jobRingMade | jobRingDropped | jobRingRestarted | reportRingMade | tuned => rfl

theorem JobResult.pending {guard : Prop} {r : JobRingId} {t u : State} (result : JobResult guard r t u) :
    u.pending = t.pending := by
  cases result with
  | answered w a done => exact (answer_pending _ _ _ _ _).trans done.pending
  | cascaded q tag control work broken => exact cascade_pending q tag t
  | unused q tag control work isOpen noUser => exact dropUnused_pending q tag t
  | fetching | waiting | dropping => rfl

theorem StepResult.pending {guard : Prop} {s t : State} (result : StepResult guard s t) : t.pending = s.pending := by
  have settled := (eventFrame_settle s).pending
  cases result with
  | events run => exact run.frame.pending
  | edges lines order => exact (qualifiedEdges_pending lines order _).trans settled
  | sampled levels order =>
    have sampled (u : State) : (sampleLines levels allLines u).pending = u.pending := by rw [sampleLines_frame]
    have passed (u : State) : (periodPasses u).pending = u.pending := by rw [periodPasses]
    unfold samplePins
    dsimp only
    split
    · exact (sampled _).trans (passed s)
    · exact (qualifiedEdges_pending _ order _).trans ((eventFrame_settle _).pending.trans ((sampled _).trans (passed s)))
  | job r reading result =>
    have arrived (u : State) : ({ u.updJobRing r JobRing.advance with taking := none } : State).pending = u.pending := rfl
    exact result.pending.trans ((arrived _).trans settled)
  | fetchFailed r reading =>
    have returned := (eventFrame_returnReservation (s.jobRing r).bound { s with taking := none }).pending
    exact (postRingNotice_pending _ _ _).trans returned
  | dropEnded j q tag waits =>
    have finished (u : State) : (finishDrop q tag u).pending = u.pending := by
      unfold finishDrop
      split
      · exact cascade_pending q tag u
      · exact dropUnused_pending q tag u
    exact (finished _).trans (eventFrame_settle { s with taking := none }).pending
  | fetched n f entries found whole =>
    exact (endFetch_pending n f _).trans ((fetchDone_pending f entries _).trans settled)
  | fetchBroke n f entry found => exact (endFetch_pending n f _).trans ((fetchFailed_pending f entry _).trans settled)
  | strayEnded q lands =>
    unfold endStray
    split <;> rfl
  | wrote q p rest oldest =>
    obtain ⟨n, timer, bits, written⟩ := writeDone_eq q p rest s
    rw [written]
    rfl
  | broke q underWay =>
    have lost : (loseRecords (s.reportRing q).unwritten s).pending = s.pending := by rw [loseRecords_frame]
    unfold ringBreaks
    dsimp only
    split
    · exact lost
    · exact (postRingNotice_pending _ _ _).trans lost
  | posted word =>
    unfold postWrite
    repeat' split
    all_goals rfl
  | released word =>
    unfold releaseWrite
    repeat' split
    all_goals rfl
  | startedUp intEnable sound idle absent =>
    unfold startPart
    split <;> rfl
  | resetRose levels phase => rw [firstSamples_frame]
  | took | ran | engineReset | hardwareReset | batchExpired | registers => rfl

/-- Settles O1: the two cases of the queue. -/
theorem stepRunsFrontCommand : Obligations.StepRunsFrontCommand := by
  unfold Obligations.StepRunsFrontCommand
  constructor
  · intro c rest s front
    unfold step
    rw [front]
  · intro s empty
    unfold step
    rw [empty]

/-- Settles O2: every command has one of the forms of a next state, and each form leaves the queue alone. -/
theorem everyCommandCompletes : Obligations.EveryCommandCompletes := by
  unfold Obligations.EveryCommandCompletes
  intro c s
  obtain ⟨u, result, form⟩ := exec_result (guard := False) c s False.elim
  exact ⟨u, result, form.pending⟩

/-! ### The entries of the state after reset (R169) -/

theorem State.reset_session (k : SessionId) : State.reset.session k = {} := by simp [State.session, State.reset]

theorem State.reset_wait (x : WaitId) : State.reset.wait x = none := by simp [State.wait, State.reset]

theorem State.reset_line (l : LineId) : State.reset.line l = {} := by simp [State.line, State.reset]

theorem State.reset_output (l : OutputId) : State.reset.output l = {} := by simp [State.output, State.reset]

theorem State.reset_jobRing (j : JobRingId) : State.reset.jobRing j = {} := by simp [State.jobRing, State.reset]

theorem State.reset_reportRing (q : ReportRingId) : State.reset.reportRing q = {} := by
  simp [State.reportRing, State.reset]

/-- A line without an owner is not driven (R118). -/
theorem State.driven_of_no_owner (s : State) (l : OutputId) (free : (s.output l).owner = none) : s.driven l = false := by
  simp [State.driven, free]

/-- Settles O3: every entry of the state after reset is a default one. -/
theorem resetValues : Obligations.ResetValues := by
  unfold Obligations.ResetValues
  refine ⟨rfl, rfl, rfl, rfl, rfl, rfl, rfl, rfl, rfl, rfl, rfl, State.reset_session, State.reset_wait, fun l => ?_,
    fun l => ?_, fun j => ?_, fun q => ?_, rfl, rfl, rfl, rfl, rfl, rfl⟩
  · rw [State.reset_line]
    exact ⟨rfl, rfl, rfl⟩
  · have undriven := State.driven_of_no_owner State.reset l (by rw [State.reset_output])
    rw [State.reset_output]
    exact ⟨rfl, rfl, rfl, undriven⟩
  · rw [State.reset_jobRing]
  · rw [State.reset_reportRing]

/-- Settles O4: with every entry a default one, each invariant holds at once. -/
theorem resetMeetsInvariants : Obligations.ResetMeetsInvariants := by
  unfold Obligations.ResetMeetsInvariants
  have waits : State.reset.WaitsAgree := reset_waitsAgree rfl rfl
  have noWait (x : WaitId) (e : WaitEntry) : State.reset.wait x ≠ some e := by rw [State.reset_wait]; nofun
  have absent (j : JobRingId) : (State.reset.jobRing j).state = .absent := by rw [State.reset_jobRing]
  have closed (q : ReportRingId) : (State.reset.reportRing q).state ≠ .opened := by rw [State.reset_reportRing]; nofun
  have inRange : State.reset.InRange :=
    ⟨fun k => State.reset_session k ▸ Session.inRange_default, nofun⟩
  have rings : State.reset.RingsSound := fun q => State.reset_reportRing q ▸ ReportRing.sound_default
  have pacing : State.reset.PacingSound := by
    unfold State.PacingSound
    simp [State.reset_session]
  have owned : State.reset.RecordsOwned := by
    unfold State.RecordsOwned
    simp [State.reset_reportRing]
  have jobs : State.reset.JobsBelong :=
    ⟨fun x e found => (noWait x e found).elim, nofun, List.nodup_nil, nofun, fun j present => (present (absent j)).elim,
      fun j present => (present (absent j)).elim⟩
  have device : State.reset.DeviceSound := by
    refine ⟨by decide, nofun, fun l => ?_⟩
    rw [State.reset_line]
    decide
  exact ⟨inRange, rings, waits, ⟨fun k _ => State.reset_session k, pacing, owned, nofun⟩,
    ⟨waits, jobs, fun q isOpen => (closed q isOpen).elim⟩, device, reset_hostMemory_wf, rfl, rfl, rfl, rfl, rfl⟩

end Sys2Proof.Machine

/-!
PROOFS. The register window: index writes, run control, start-up and INT_N (R127, R147, R162, R165 to R171, R180).
-/

namespace Sys2Proof.Machine

/-! ### A write to a register, by READY (R165) -/

/-- A ring-id field above 7 names no ring. -/
theorem jobRingOf_eq_none (b : Byte) (bad : 7 < b.toNat) : jobRingOf b = none := by
  simp [jobRingOf, Nat.not_lt.mpr bad]

theorem exec_jpost (word : Word32) (s : State) (ready : s.phase = .ready) :
    exec (.jpost word) s = .next (postWrite word s) := congrArg Host.Outcome.next (if_pos ready)

theorem exec_rrelease (word : Word32) (s : State) (ready : s.phase = .ready) :
    exec (.rrelease word) s = .next (releaseWrite word s) := congrArg Host.Outcome.next (if_pos ready)

theorem exec_run (word : Word32) (s : State) (ready : s.phase = .ready) :
    exec (.run word) s = .next (controlWrite word s) := congrArg Host.Outcome.next (if_pos ready)

theorem exec_intPending (word : Word32) (s : State) (ready : s.phase = .ready) :
    exec (.intPending word) s = .next (clearPending word s) := congrArg Host.Outcome.next (if_pos ready)

theorem exec_badIndexClear (word : Word32) (s : State) (ready : s.phase = .ready) :
    exec (.badIndexClear word) s = .next (statusWrite word s) := congrArg Host.Outcome.next (if_pos ready)

theorem exec_controlRegionWrite (reg : CrRegister) (word : Word32) (s : State) (ready : s.phase = .ready) :
    exec (.controlRegionWrite reg word) s = .next (regionWrite reg word s) := congrArg Host.Outcome.next (if_pos ready)

theorem exec_registerWrite (offset : Nat) (word : Word32) (s : State) (ready : s.phase = .ready) :
    exec (.registerWrite offset word) s = .next (windowWrite offset word s) := congrArg Host.Outcome.next (if_pos ready)

/-- The four CONTROL rows are one write (log 8). -/
theorem exec_control_rows (word : Word32) (s : State) :
    exec (.run word) s = exec (.startUp word) s ∧ exec (.run word) s = exec (.intEnable word) s ∧
      exec (.run word) s = exec (.engineReset word) s := ⟨rfl, rfl, rfl⟩

/-! ### Index writes (R127, R147) -/

theorem postWrite_of_no_ring (word : Word32) (s : State) (bad : 7 < (ringField word).toNat) :
    postWrite word s = { s with badIndex := true } := by
  simp only [postWrite, jobRingOf_eq_none _ bad]

theorem postWrite_of_ring (word : Word32) (s : State) (j : JobRingId) (named : (ringField word).toNat = j.val) :
    postWrite word s =
      if (s.jobRing j).state ≠ .absent ∧ indexField word < (s.jobRing j).size then
        s.setJobRing j { s.jobRing j with post := indexField word }
      else { s with badIndex := true } := by
  simp only [postWrite, (jobRingOf_eq_some_iff _ j).mpr named]
  rfl

theorem releaseWrite_of_no_ring (word : Word32) (s : State) (bad : 7 < (ringField word).toNat) :
    releaseWrite word s = { s with badIndex := true } := by
  simp only [releaseWrite, reportRingOf_eq_none _ bad]

theorem releaseWrite_of_ring (word : Word32) (s : State) (q : ReportRingId) (named : (ringField word).toNat = q.val) :
    releaseWrite word s =
      if (s.reportRing q).acceptsRelease (indexField word) then
        s.setReportRing q ((s.reportRing q).released (indexField word))
      else { s with badIndex := true } := by
  simp only [releaseWrite, (reportRingOf_eq_some_iff _ q).mpr named]
  rfl

/-- An accepted release names a ring that is there, an index inside it, and no more records than are outstanding (R147). -/
theorem ReportRing.acceptsRelease_iff (r : ReportRing) (index : Nat) :
    r.acceptsRelease index = true ↔
      r.state ≠ .absent ∧ index < r.size ∧ (index + r.size - r.releaseIndex) % r.size ≤ r.outstanding := by
  simp only [ReportRing.acceptsRelease, Bool.and_eq_true, decide_eq_true_eq, and_assoc]
  rfl

/-- Settles O54: each write by READY, by its ring field and by its index. -/
theorem indexWritesAreTakenOrSetBadIndex : Obligations.IndexWritesAreTakenOrSetBadIndex := by
  unfold Obligations.IndexWritesAreTakenOrSetBadIndex
  intro s word index id
  refine ⟨fun notReady => ⟨congrArg Host.Outcome.next (if_neg notReady), congrArg Host.Outcome.next (if_neg notReady)⟩,
    fun ready => ?_⟩
  rw [exec_jpost word s ready, exec_rrelease word s ready]
  refine ⟨fun bad => ?_, fun j named => ?_, fun q named => ?_⟩
  · rw [postWrite_of_no_ring word s bad, releaseWrite_of_no_ring word s bad]
    exact ⟨rfl, rfl⟩
  · rw [postWrite_of_ring word s j named]
    refine ⟨fun refused => congrArg Host.Outcome.next (if_neg fun taken => ?_), fun present inside =>
      congrArg Host.Outcome.next (if_pos ⟨present, inside⟩)⟩
    rcases refused with absent | outside
    · exact taken.1 absent
    · exact Nat.not_lt.mpr outside taken.2
  · intro ring count freed
    rw [releaseWrite_of_ring word s q named]
    refine ⟨fun refused => congrArg Host.Outcome.next (if_neg fun taken => ?_), fun present inside few =>
      congrArg Host.Outcome.next (if_pos ((ReportRing.acceptsRelease_iff _ _).mpr ⟨present, inside, few⟩))⟩
    obtain ⟨present, inside, few⟩ := (ReportRing.acceptsRelease_iff _ _).mp taken
    rcases refused with absent | outside | many
    · exact present absent
    · exact Nat.not_lt.mpr outside inside
    · exact Nat.not_lt.mpr few many

/-! ### CONTROL (R166, R170, R171) -/

/-- A CONTROL word without RESET. -/
theorem controlWrite_of_no_reset (word : Word32) (s : State) (noReset : word.getLsbD 1 = false) :
    controlWrite word s = runWrite (word.getLsbD 0) { s with intEnable := word.getLsbD 2 } := by
  simp only [controlWrite, controlReset, noReset]
  rfl

/-- A CONTROL word with RESET. -/
theorem controlWrite_of_reset (word : Word32) (s : State) (reset : word.getLsbD 1 = true) :
    controlWrite word s = engineResets { s with intEnable := word.getLsbD 2 } := by
  simp only [controlWrite, controlReset, reset]
  rfl

theorem runWrite_of_fatal (value : Bool) (s : State) (fatal : s.fatalCause ≠ .none) : runWrite value s = s := by
  simp [runWrite, State.isFatal, fatal]

/-- Outside FATAL the write is the start-up or sets RUN. -/
theorem runWrite_of_sound (value : Bool) (s : State) (sound : s.fatalCause = .none) :
    runWrite value s =
      if value = true ∧ s.run = false ∧ (s.jobRing 0).state = .absent then startPart s else { s with run := value } := by
  simp [runWrite, State.isFatal, sound]

/-- Settles O56: the rows are one write, and RUN in and outside FATAL. -/
theorem controlWritesSetRunAndIntEnable : Obligations.ControlWritesSetRunAndIntEnable := by
  unfold Obligations.ControlWritesSetRunAndIntEnable
  refine ⟨fun s word => exec_control_rows word s, fun s word ready noReset => ?_⟩
  rw [exec_run word s ready, controlWrite_of_no_reset word s noReset]
  refine ⟨fun fatal => ?_, fun sound notStartUp => ?_⟩
  · exact congrArg Host.Outcome.next (runWrite_of_fatal _ { s with intEnable := word.getLsbD 2 } fatal)
  · exact congrArg Host.Outcome.next
      ((runWrite_of_sound _ { s with intEnable := word.getLsbD 2 } sound).trans (if_neg notStartUp))

/-- The four checks of the control region (R168, R170). -/
theorem State.regionOk_iff (s : State) :
    s.regionOk = true ↔
      2 ≤ s.crJr0Size.toNat ∧ s.crJr0Size.toNat ≤ 256 ∧ 2 ≤ s.crRr0Size.toNat ∧ s.crRr0Size.toNat ≤ 256 ∧
        s.regionBase % 32 = 0 ∧ s.rr0Base + 16 * s.crRr0Size.toNat ≤ 2 ^ 64 := by
  simp only [State.regionOk, Bool.and_eq_true, decide_eq_true_eq, and_assoc]
  rfl

/-- Settles O57: the start-up by the checks of its region. -/
theorem startUpMakesTheControlRings : Obligations.StartUpMakesTheControlRings := by
  unfold Obligations.StartUpMakesTheControlRings
  intro s word ready noReset runs idle sound absent base j r good
  let t : State := { s with intEnable := word.getLsbD 2 }
  have starts : exec (.startUp word) s = .next (startPart t) := by
    have isStartUp : word.getLsbD 0 = true ∧ t.run = false ∧ (t.jobRing 0).state = .absent := ⟨runs, idle, absent⟩
    rw [← (exec_control_rows word s).1, exec_run word s ready, controlWrite_of_no_reset word s noReset,
      runWrite_of_sound _ t sound, if_pos isStartUp]
  have checked : t.regionOk = true ↔ good := State.regionOk_iff t
  rw [starts]
  refine ⟨fun bad => ?_, fun passes => ⟨_, rfl, ?_⟩⟩
  · exact congrArg Host.Outcome.next (if_neg fun ok => bad (checked.mp ok))
  · rw [startPart, if_pos (checked.mpr passes)]
    refine ⟨rfl, fun i => ?_, fun i => ?_⟩
    · exact State.reportRing_setReportRing s 0 i _
    · exact State.jobRing_setJobRing s 0 i _

/-! ### INT_N (R162) -/

/-- A word is not 0 exactly when one of its bits is set. -/
theorem ne_zero_iff_exists_bit (x : BitVec 8) : x ≠ 0 ↔ ∃ q : Fin 8, x.getLsbD q.val = true := by
  constructor
  · intro nonzero
    by_contra none
    refine nonzero (BitVec.eq_of_getLsbD_eq fun n inside => ?_)
    have clear := not_exists.mp none ⟨n, inside⟩
    simpa using clear
  · rintro ⟨q, set⟩ rfl
    simp at set

theorem State.intN_iff (s : State) :
    s.intN = true ↔ s.intEnable = true ∧ ∃ q : ReportRingId, s.intPending.getLsbD q.val = true := by
  rw [State.intN, Bool.and_eq_true, decide_eq_true_iff, ne_zero_iff_exists_bit]

theorem State.intN_of_nothing_pending (s : State) (none : s.intPending = 0) : s.intN = false := by
  simp [State.intN, none]

/-- A CONTROL word without RESET sets INT_ENABLE and leaves the INT_PENDING bits. -/
theorem runWrite_interrupts (value : Bool) (s : State) :
    (runWrite value s).intEnable = s.intEnable ∧ (runWrite value s).intPending = s.intPending := by
  unfold runWrite startPart
  repeat' split
  all_goals exact ⟨rfl, rfl⟩

/-- Settles O58. -/
theorem intNFollowsEnableAndPending : Obligations.IntNFollowsEnableAndPending := by
  unfold Obligations.IntNFollowsEnableAndPending
  refine ⟨State.intN_iff, fun s word ready noReset => ?_, fun s => ⟨_, rfl, rfl, rfl, ?_⟩,
    fun s word ready reset => ?_⟩
  · refine ⟨_, (exec_control_rows word s).2.1.symm.trans (exec_run word s ready), ?_⟩
    rw [controlWrite_of_no_reset word s noReset]
    exact runWrite_interrupts _ _
  · exact State.intN_of_nothing_pending _ rfl
  · refine ⟨_, (exec_control_rows word s).2.2.symm.trans (exec_run word s ready), ?_⟩
    rw [controlWrite_of_reset word s reset]
    exact ⟨rfl, rfl, State.intN_of_nothing_pending _ rfl⟩

end Sys2Proof.Machine

/-!
PROOFS. Register writes and reads by offset (R161, R165, R167, R168, R180), and the two resets with the clocks (R20, R40,
R169, R172).
-/

namespace Sys2Proof.Machine

/-! ### Writes (R161, R167, R168) -/

theorem statusWrite_eq (word : Word32) (s : State) :
    statusWrite word s = { s with badIndex := s.badIndex && !word.getLsbD 8 } := by
  unfold statusWrite statusBadIndex
  cases word.getLsbD 8 <;> simp

theorem clearPending_bit (word : Word32) (s : State) (q : ReportRingId) :
    (clearPending word s).intPending.getLsbD q.val = (s.intPending.getLsbD q.val && !word.getLsbD q.val) := by
  have inside := q.isLt
  simp only [clearPending, BitVec.getLsbD_and, BitVec.getLsbD_not, BitVec.getLsbD_extractLsb', inside, decide_true,
    Bool.true_and, Nat.zero_add]

theorem regionWrite_of_run (reg : CrRegister) (word : Word32) (s : State) (runs : s.run = true) :
    regionWrite reg word s = s := by
  unfold regionWrite
  exact if_pos runs

/-- A register write by its offset. -/
theorem windowWrite_eq (offset : Nat) (word : Word32) (s : State) :
    windowWrite offset word s =
      if offset = 0x04 then controlWrite word s
      else if offset = 0x08 then statusWrite word s
      else if offset = 0x0c then regionWrite .baseLo word s
      else if offset = 0x10 then regionWrite .baseHi word s
      else if offset = 0x14 then regionWrite .sizes word s
      else if offset = 0x18 then postWrite word s
      else if offset = 0x1c then releaseWrite word s
      else if offset = 0x20 then clearPending word s
      else s := by
  unfold windowWrite
  split
  case h_9 h04 h08 h0c h10 h14 h18 h1c h20 =>
    rw [if_neg h04, if_neg h08, if_neg h0c, if_neg h10, if_neg h14, if_neg h18, if_neg h1c, if_neg h20]
  all_goals rfl

/-! ### Reads (R167, R180) -/

/-- Two words set side by side, as a number. -/
theorem toNat_append_eq {n v : Nat} (x : BitVec n) (y : BitVec v) : (x ++ y).toNat = x.toNat * 2 ^ v + y.toNat := by
  rw [BitVec.toNat_append, ← Nat.shiftLeft_add_eq_or_of_lt y.isLt, Nat.shiftLeft_eq]

theorem State.controlWord_eq (s : State) :
    s.controlWord =
      (0#29 ++ BitVec.ofBool s.intEnable ++ BitVec.ofBool (s.phase = .engineReset) ++ BitVec.ofBool s.run) := by
  have fields (run reset enabled : Bool) :
      toWord ((if run then 1 else 0) + (if reset then 2 else 0) + (if enabled then 4 else 0)) =
        (0#29 ++ BitVec.ofBool enabled ++ BitVec.ofBool reset ++ BitVec.ofBool run) := by
    revert run reset enabled
    decide
  have own := fields s.run (decide (s.phase = .engineReset)) s.intEnable
  simp only [decide_eq_true_eq] at own
  exact own

/-- STATUS as read, field by field (R167). -/
theorem State.statusWord_fields (s : State) :
    s.statusWord.getLsbD 0 = decide (s.phase = .ready) ∧ s.statusWord.getLsbD 1 = s.takingBit ∧
      s.statusWord.getLsbD 2 = s.isFatal ∧ s.statusWord.getLsbD 3 = false ∧
      s.statusWord.extractLsb' 4 2 = (match s.fatalCause with | .none => 0 | .config => 1 | .rr0Broken => 2) ∧
      s.statusWord.extractLsb' 6 2 = 0 ∧ s.statusWord.getLsbD 8 = s.badIndex ∧ s.statusWord.extractLsb' 9 23 = 0 := by
  have fields (ready taking fatal bad : Bool) (cause : FatalCause) :
      let w := toWord ((if ready then 1 else 0) + (if taking then 2 else 0) + (if fatal then 4 else 0) + cause.bits * 16 +
        (if bad then 256 else 0))
      w.getLsbD 0 = ready ∧ w.getLsbD 1 = taking ∧ w.getLsbD 2 = fatal ∧ w.getLsbD 3 = false ∧
        w.extractLsb' 4 2 = (match cause with | .none => 0 | .config => 1 | .rr0Broken => 2) ∧
        w.extractLsb' 6 2 = 0 ∧ w.getLsbD 8 = bad ∧ w.extractLsb' 9 23 = 0 := by
    cases cause <;> revert ready taking fatal bad <;> decide
  have own := fields (decide (s.phase = .ready)) s.takingBit s.isFatal s.badIndex s.fatalCause
  simp only [decide_eq_true_eq] at own
  exact own

theorem State.takingBit_iff (s : State) :
    s.takingBit = true ↔ (∃ t, s.taking = some t) ∨ ∃ j, (s.jobRing j).fetchInFlight = true := by
  simp [State.takingBit, allJobRings, Option.isSome_iff_exists]

theorem State.crSizesWord_eq (s : State) : s.crSizesWord = 0#7 ++ s.crRr0Size ++ 0#7 ++ s.crJr0Size := by
  have small := s.crJr0Size.isLt
  have small' := s.crRr0Size.isLt
  apply BitVec.eq_of_toNat_eq
  simp only [State.crSizesWord, toWord, BitVec.toNat_ofNat, toNat_append_eq, Nat.zero_mod, Nat.zero_mul, Nat.zero_add]
  omega

theorem State.intPending_read (s : State) : s.intPending.setWidth 32 = 0#24 ++ s.intPending := by
  have small := s.intPending.isLt
  apply BitVec.eq_of_toNat_eq
  rw [toNat_append_eq, BitVec.toNat_setWidth, BitVec.toNat_zero, Nat.zero_mul, Nat.zero_add, Nat.mod_eq_of_lt (by omega)]

/-- An offset outside the map reads 0 (log 21). -/
theorem State.readRegister_of_no_register (s : State) (offset : Nat)
    (outside : offset ∉ [0x00, 0x04, 0x08, 0x0c, 0x10, 0x14, 0x20]) : s.readRegister offset = 0 := by
  unfold State.readRegister
  split
  case h_8 => rfl
  all_goals simp at outside

/-- Settles O55: writes while READY is 0 and 1, and reads field by field. -/
theorem registerWritesActByOffset : Obligations.RegisterWritesActByOffset := by
  unfold Obligations.RegisterWritesActByOffset
  refine ⟨fun s offset word reg notReady => ?_, fun s word ready => ⟨?_, ?_, ?_, ?_, ?_⟩, fun s => ?_⟩
  · have ignored (u : State) : Host.Outcome.next (if s.phase = .ready then u else s) = (.next s : Host.Outcome State Fault Refusal) :=
      congrArg Host.Outcome.next (if_neg notReady)
    exact ⟨ignored _, ignored _, ignored _, ignored _, ignored _, ignored _, ignored _, ignored _⟩
  · exact ⟨_, exec_intPending word s ready, rfl, clearPending_bit word s⟩
  · rw [exec_badIndexClear word s ready, statusWrite_eq]
  · intro runs reg
    rw [exec_controlRegionWrite reg word s ready, regionWrite_of_run reg word s runs]
  · intro idle
    have accepted (u : State) : (if s.run = true then s else u) = u := if_neg (by simp [idle])
    simp only [exec_controlRegionWrite _ word s ready, regionWrite]
    exact ⟨congrArg _ (accepted _), congrArg _ (accepted _), congrArg _ (accepted _)⟩
  · intro offset
    rw [exec_registerWrite offset word s ready, exec_run word s ready, exec_badIndexClear word s ready,
      exec_controlRegionWrite _ word s ready, exec_controlRegionWrite _ word s ready, exec_controlRegionWrite _ word s ready,
      exec_jpost word s ready, exec_rrelease word s ready, exec_intPending word s ready, windowWrite_eq]
    simp only [apply_ite Host.Outcome.next]
  · obtain ⟨isReady, taking, fatal, clear, cause, clear', bad, clear''⟩ := s.statusWord_fields
    have ident : identWord = 7#3 ++ 7#3 ++ 7#3 ++ 15#4 ++ 31#5 ++ 1#6 ++ 0x3c#8 := by decide
    refine ⟨ident, s.controlWord_eq, isReady, ?_, fatal, clear, cause, clear', bad, clear'', rfl, rfl,
      s.crSizesWord_eq, rfl, rfl, s.intPending_read, fun offset outside => ?_⟩
    · exact (Bool.eq_iff_iff.mp taking).trans s.takingBit_iff
    · exact s.readRegister_of_no_register offset fun listed => outside
        ((by decide : [0x00, 0x04, 0x08, 0x0c, 0x10, 0x14, 0x20] ⊆ [0x00, 0x04, 0x08, 0x0c, 0x10, 0x14, 0x18, 0x1c, 0x20])
          listed)

/-! ### The two resets (R20, R143, R169, R172) -/

/-- A state with the tables and the fields of the state after reset has nothing in use. -/
theorem everythingFreed_of_reset {u : State} (sessions : u.sessions = State.reset.sessions)
    (waits : u.waits = State.reset.waits) (outputs : u.outputs = State.reset.outputs)
    (jobRings : u.jobRings = State.reset.jobRings) (reportRings : u.reportRings = State.reset.reportRings)
    (fetches : u.fetches = []) (turn : u.turn = 7) (turnLeft : u.turnLeft = 0) (taking : u.taking = none)
    (lost : u.rr0Lost = 0) (run : u.run = false) (fatal : u.fatalCause = .none) (pending : u.intPending = 0) :
    EverythingFreed u := by
  refine ⟨fun k => ?_, fun x => ?_, fetches, fun j => ?_, fun q => ?_, fun l => ?_, turn, turnLeft, taking, lost, run, fatal,
    pending⟩
  · rw [State.session_congr _ _ sessions, State.reset_session]
  · rw [State.wait_congr _ _ waits, State.reset_wait]
  · rw [State.jobRing_congr _ _ jobRings, State.reset_jobRing]
  · rw [State.reportRing_congr _ _ reportRings, State.reset_reportRing]
    exact ⟨rfl, rfl, rfl, rfl⟩
  · rw [State.output_congr _ _ outputs, State.reset_output]

theorem engineResets_freed (s : State) : EverythingFreed (engineResets s) :=
  everythingFreed_of_reset rfl rfl rfl rfl rfl rfl rfl rfl rfl rfl rfl rfl rfl

/-- The writes under way, ring by ring: the head of each ring's unwritten records (R146). -/
theorem strays_inFlight (s : State) : s.strays ++ s.inFlightWrites = straysAfter s := by
  have ring (q : ReportRingId) : (s.reportRing q).stray q =
      ((s.reportRing q).unwritten.head?.map fun p =>
        ({ ring := q, address := (s.reportRing q).base + 16 * p.slot, data := p.record.encode p.lap } : StrayWrite)).toList := by
    unfold ReportRing.stray
    cases (s.reportRing q).unwritten <;> rfl
  rw [straysAfter, State.inFlightWrites, allReportRings, List.filterMap_eq_flatMap_toList]
  simp only [ring]

/-- The bytes of a record written from an address upward (R174). -/
theorem Memory.read_record_inside (m : Memory) (a n : Nat) (data : BitVec 128) (inside : n < 16) :
    (m.writeBytes a (recordBytes data)).read (a + n) = some (data.extractLsb' (8 * n) 8) :=
  (read_writeBytes_inside _ m a n (by rwa [recordBytes_length])).trans (recordBytes_get data n inside)

theorem Memory.read_record_outside (m : Memory) (a c : Nat) (data : BitVec 128) (outside : c < a ∨ a + 16 ≤ c) :
    (m.writeBytes a (recordBytes data)).read c = m.read c :=
  read_writeBytes_outside _ m a c (by rwa [recordBytes_length])

/-- A ring with no stray write of its own has none that ends. -/
theorem endStray_of_none (q : ReportRingId) (lands : Bool) (s : State) (none : ∀ x ∈ s.strays, x.ring ≠ q) :
    endStray q lands s = s := by
  have found : s.strays.find? (fun x => decide (x.ring = q)) = .none := by simpa using none
  rw [endStray, found]

/-- The oldest stray write of the ring ends. -/
theorem endStray_of_oldest (q : ReportRingId) (lands : Bool) (s : State) (older newer : List StrayWrite) (x : StrayWrite)
    (strays : s.strays = older ++ x :: newer) (others : ∀ y ∈ older, y.ring ≠ q) (own : x.ring = q) :
    endStray q lands s =
      { s with
        strays := older ++ newer
        hostMemory := if lands then s.hostMemory.writeBytes x.address (recordBytes x.data) else s.hostMemory } := by
  have found : s.strays.find? (fun x => decide (x.ring = q)) = some x := by
    rw [strays, List.find?_append, List.find?_eq_none.mpr (by simpa using others)]
    simp [own]
  have left : s.strays.erase x = older ++ newer := by
    have notOlder : x ∉ older := fun listed => others x listed own
    rw [strays, List.erase_append_right _ notOlder, List.erase_cons_head]
  rw [endStray, found]
  simp only [left]

theorem exec_reportWriteDone_of_none (q : ReportRingId) (s : State) (none : (s.reportRing q).unwritten = []) :
    exec (.reportWriteDone q) s = .next (endStray q true s) := by
  change Host.Outcome.next _ = _
  rw [none]

theorem exec_reportWriteError_of_none (q : ReportRingId) (s : State) (none : (s.reportRing q).unwritten = []) :
    exec (.reportWriteError q) s = .next (endStray q false s) := by
  change Host.Outcome.next _ = _
  rw [none]

/-- Settles O59: the engine reset field by field, its end, and the writes that it leaves to the bus. -/
theorem engineResetFreesEverything : Obligations.EngineResetFreesEverything := by
  unfold Obligations.EngineResetFreesEverything
  refine ⟨fun s word ready reset => ?_, fun s resetting => congrArg Host.Outcome.next (if_pos resetting),
    fun s other => congrArg Host.Outcome.next (if_neg other), fun s q none => ?_⟩
  · refine ⟨_, (exec_control_rows word s).2.2.symm.trans (exec_run word s ready), ?_⟩
    rw [controlWrite_of_reset word s reset]
    set u := engineResets { s with intEnable := word.getLsbD 2 } with runs
    have control : (u.readRegister 0x04).getLsbD 1 = true := by
      have bit (enabled run : Bool) :
          (0#29 ++ BitVec.ofBool enabled ++ BitVec.ofBool true ++ BitVec.ofBool run).getLsbD 1 = true := by
        revert enabled run
        decide
      have read : u.readRegister 0x04 = _ := u.controlWord_eq
      rw [read]
      exact bit _ _
    have status : (u.readRegister 0x08).getLsbD 0 = false := u.statusWord_fields.1
    exact ⟨engineResets_freed _, rfl, control, status, rfl, rfl, rfl,
      rfl, rfl, rfl, rfl, rfl, rfl, rfl, strays_inFlight s⟩
  · rw [exec_reportWriteDone_of_none q s none, exec_reportWriteError_of_none q s none]
    refine ⟨fun noStray => ?_, fun older x newer strays others own => ?_⟩
    · rw [endStray_of_none q true s noStray, endStray_of_none q false s noStray]
      exact ⟨rfl, rfl⟩
    · have inside (n : Nat) (h : n < 16) := s.hostMemory.read_record_inside x.address n x.data h
      have outside (a : Nat) (h : a < x.address ∨ x.address + 16 ≤ a) :=
        s.hostMemory.read_record_outside x.address a x.data h
      rw [endStray_of_oldest q false s older newer x strays others own, endStray_of_oldest q true s older newer x strays others own,
        if_pos rfl]
      generalize s.hostMemory.writeBytes x.address (recordBytes x.data) = written at inside outside ⊢
      exact ⟨rfl, _, rfl, rfl, inside, outside⟩

/-- Every line of the list has accepted its first sample (R113). -/
theorem firstSamples_line (levels : BitVec 16) (l : List LineId) (s : State) (m : LineId) (distinct : l.Nodup) :
    (firstSamples levels l s).line m =
      if m ∈ l then { s.line m with accepted := levels.getLsbD m.val, runCount := 0 } else s.line m := by
  induction l generalizing s with
  | nil => simp [firstSamples]
  | cons x rest ih =>
    obtain ⟨notLater, distinct⟩ := List.nodup_cons.mp distinct
    rw [firstSamples, ih _ distinct]
    by_cases own : m = x
    · subst own
      simp [notLater]
    · simp [own, State.line_setLine]

/-- Settles O60: the hardware reset, the phases after it and the stamp clock. -/
theorem hardwareResetInitialisationAndStampClock : Obligations.HardwareResetInitialisationAndStampClock := by
  unfold Obligations.HardwareResetInitialisationAndStampClock
  refine ⟨fun s => ⟨_, rfl, ?_⟩, fun s levels low => ?_, fun s levels high => congrArg Host.Outcome.next (if_neg high),
    fun s starting => congrArg Host.Outcome.next (if_pos starting), fun s other => congrArg Host.Outcome.next (if_neg other),
    fun s => ⟨fun high => congrArg Host.Outcome.next (if_neg high), fun low => congrArg Host.Outcome.next (if_pos low),
      fun last => by rw [last]; decide⟩⟩
  · refine ⟨everythingFreed_of_reset rfl rfl rfl rfl rfl rfl rfl rfl rfl rfl rfl rfl rfl, rfl, rfl, rfl, rfl, rfl, rfl, rfl,
      rfl, rfl, rfl, strays_inFlight s, fun l => ?_, rfl⟩
    have line : State.reset.line l = {} := State.reset_line l
    change (State.reset.line l).inverted = false ∧ (State.reset.line l).width = 4 ∧ (State.reset.line l).runCount = 0
    rw [line]
    exact ⟨rfl, rfl, rfl⟩
  · refine ⟨_, congrArg Host.Outcome.next (if_pos low), ?_, fun l => ?_⟩
    · rw [firstSamples_frame]
    · rw [firstSamples_line levels allLines _ l (List.nodup_finRange 16), if_pos (show l ∈ allLines from List.mem_finRange l)]
      rfl

end Sys2Proof.Machine

/-!
PROOFS. The window end, whole (R30, R45, R46, R54, R58, R78, R104).
-/

namespace Sys2Proof.Machine

/-! ### WINDOWS waits that a window end lowers (R104) -/

/-- What a window end leaves of a wait of its session: none where the wait is met. -/
def loweredWait (y : WaitEntry) : Option WaitEntry :=
  match y.cond with
  | .windows n left => if left ≤ 1 then none else some { y with cond := .windows n (left - 1) }
  | .reach _ _ | .atLeast _ | .atMost _ | .idle => some y

theorem windowEnds_of_lowered_none (y : WaitEntry) (met : loweredWait y = none) : windowEnds y = some .success := by
  unfold loweredWait at met
  unfold windowEnds
  split at met
  next n left cond =>
    split at met
    next last => simp only [cond, if_pos last]
    next => cases met
  all_goals cases met

theorem windowEnds_of_lowered_some (y z : WaitEntry) (lowered : loweredWait y = some z) :
    windowEnds y = none ∧ z.session = y.session := by
  unfold loweredWait at lowered
  unfold windowEnds
  split at lowered
  next n left cond =>
    split at lowered
    next => cases lowered
    next more =>
      cases lowered
      simp only [cond, if_neg more, and_self]
  all_goals
    next cond =>
      cases lowered
      simp only [cond, and_self]

/-- An entry whose condition alone has changed completes as it would have. -/
theorem completeWait_setWait (w : WaitId) (status : Status) (s : State) (e : WaitEntry) (cond : WaitCond)
    (found : s.wait w = some e) :
    completeWait w status (s.setWait w (some { e with cond })) = completeWait w status s := by
  have freed : freeWait w (s.setWait w (some { e with cond })) = freeWait w s := by
    rw [freeWait_eq w s e found, freeWait_eq w _ { e with cond } (State.wait_setWait_same _ _ _)]
    simp [State.setWait, State.updSession, State.setSession, State.session]
  simp only [completeWait, completeWaitAt, found, State.wait_setWait_same, freed]
  rfl

theorem State.setWait_self (s : State) (w : WaitId) : s.setWait w (s.wait w) = s := by
  simp [State.setWait, State.wait]

/-- One wait of the list: it is met, or its entry is the lowered one. -/
theorem lowerWindows_cons (w : WaitId) (rest : List WaitId) (s : State) (e : WaitEntry) (found : s.wait w = some e) :
    lowerWindows (w :: rest) s =
      lowerWindows rest
        (match loweredWait e with
        | none => completeWait w .success s
        | some e' => s.setWait w (some e')) := by
  have same : s.setWait w (some e) = s := found ▸ s.setWait_self w
  cases cond : e.cond with
  | windows n left =>
    simp only [lowerWindows, found, cond, loweredWait]
    split
    · rw [completeWait_setWait w _ s e _ found]
    · rfl
  | reach _ _ | atLeast _ | atMost _ | idle => simp only [lowerWindows, found, cond, loweredWait, same]

/-- `u` is `s` after the waits of `l` have been lowered in list order; all are waits of session `k`. -/
structure WindowsLowered (k : SessionId) (l : List WaitId) (s u : State) : Prop where
  frame : RecordFrame s u
  others : OtherSessionsKept k s u
  session : u.session k =
    { s.session k with waits := (s.session k).waits.diff (l.filter (endsWait windowEnds s)) }
  wait : ∀ x, u.wait x = if x ∈ l then (s.wait x).bind loweredWait else s.wait x
  records : Handed (l.filterMap (waitRecord windowEnds k (s.session k).count s)) s u

theorem WindowsLowered.nil (k : SessionId) (s : State) : WindowsLowered k [] s s where
  frame := .refl s
  others := fun _ _ => rfl
  session := rfl
  wait := by simp
  records := fun _ => (handedRing_nil _ _).symm

/-- The head of the list, then the rest of it. -/
theorem WindowsLowered.cons {k : SessionId} {w : WaitId} {l : List WaitId} {s v u : State} (fresh : w ∉ l)
    (head : WindowsLowered k [w] s v) (rest : WindowsLowered k l v u) : WindowsLowered k (w :: l) s u := by
  have pool (x : WaitId) (listed : x ∈ l) : v.wait x = s.wait x := by
    rw [head.wait, if_neg (by simp [ne_of_mem_of_not_mem listed fresh])]
  have ends (x : WaitId) (listed : x ∈ l) : endsWait windowEnds v x = endsWait windowEnds s x := by
    simp [endsWait, pool x listed]
  have record (x : WaitId) (listed : x ∈ l) :
      waitRecord windowEnds k (v.session k).count v x = waitRecord windowEnds k (s.session k).count s x := by
    simp only [waitRecord, pool x listed, head.frame.jobRing, head.frame.stamp, head.session]
  refine ⟨head.frame.trans rest.frame, fun j other => (rest.others j other).trans (head.others j other), ?_, fun x => ?_,
    fun q => ?_⟩
  · rw [rest.session, head.session, List.filter_congr ends, ← List.singleton_append (l := l), List.filter_append,
      List.diff_append]
  · rw [rest.wait, head.wait]
    by_cases own : x = w
    · simp [own, fresh]
    · simp [own]
  · rw [rest.records q, head.records q, ← List.singleton_append (l := l), List.filterMap_append, handedRing_append,
      List.filterMap_congr record]

theorem WindowsLowered.met {k : SessionId} {w : WaitId} {s : State} {e : WaitEntry} (found : s.wait w = some e)
    (own : e.session = k) (met : loweredWait e = none) : WindowsLowered k [w] s (completeWait w .success s) := by
  have status := windowEnds_of_lowered_none e met
  obtain ⟨frame, others, session, wait, records⟩ :=
    WaitsCompleted.cons_ended found own status List.not_mem_nil (.nil windowEnds k _)
  refine ⟨frame, others, session, fun x => ?_, records⟩
  rw [wait]
  by_cases here : x = w
  · simp [here, endsWait, found, status, met]
  · simp [here]

theorem WindowsLowered.kept {k : SessionId} {w : WaitId} {s : State} {e e' : WaitEntry} (found : s.wait w = some e)
    (lowered : loweredWait e = some e') : WindowsLowered k [w] s (s.setWait w (some e')) := by
  have status := (windowEnds_of_lowered_some e e' lowered).1
  have stays : endsWait windowEnds s w = false := by simp [endsWait, found, status]
  have silent : waitRecord windowEnds k (s.session k).count s w = none := by simp [waitRecord, found, status]
  refine ⟨rfl, fun _ _ => rfl, ?_, fun x => ?_, fun q => ?_⟩
  · simp [stays]
  · rw [State.wait_setWait]
    by_cases here : x = w
    · simp [here, found, lowered]
    · simp [here]
  · simp [silent]

/-- Lowering a list of different waits of one session, in list order. -/
theorem lowerWindows_lowered (k : SessionId) (l : List WaitId) (s : State) (distinct : l.Nodup)
    (own : ∀ w ∈ l, ∃ e, s.wait w = some e ∧ e.session = k) : WindowsLowered k l s (lowerWindows l s) := by
  induction l generalizing s with
  | nil => exact .nil k s
  | cons w rest ih =>
    obtain ⟨fresh, distinct⟩ := List.nodup_cons.mp distinct
    obtain ⟨e, found, mine⟩ := own w (by simp)
    have others {v : State} (head : WindowsLowered k [w] s v) : ∀ x ∈ rest, ∃ e, v.wait x = some e ∧ e.session = k := by
      intro x listed
      rw [head.wait, if_neg (by simp [ne_of_mem_of_not_mem listed fresh])]
      exact own x (by simp [listed])
    rw [lowerWindows_cons w rest s e found]
    cases lowered : loweredWait e with
    | none =>
      have head := WindowsLowered.met found mine lowered
      exact head.cons fresh (ih _ distinct (others head))
    | some e' =>
      have head := WindowsLowered.kept (k := k) found lowered
      exact head.cons fresh (ih _ distinct (others head))

/-! ### The entry and the SAMPLE (R45, R46) -/

/-- No SAMPLE at the window end: an INTERVAL session with OWN source whose windows are not reported (R45). -/
abbrev Session.silent (e : Session) : Prop :=
  e.mode = some .interval ∧ e.windowSource = some .own ∧ e.reportWindows = false

theorem Session.postsSample_iff (e : Session) : e.postsSample = true ↔ ¬e.silent := by
  unfold Session.postsSample Session.silent
  split
  next mode source => simp [mode, source]
  next other => simp only [true_iff]; exact fun h => other h.1 h.2.1

theorem Session.sampleValue_eq (e : Session) :
    e.sampleValue =
      if e.mode = some .interval ∧ e.windowSource = some .own then e.windowLength.getD 0 else e.count := by
  unfold Session.sampleValue
  split
  next mode source => rw [if_pos ⟨mode, source⟩]
  next other => rw [if_neg fun h => other h.1 h.2]

theorem Session.windowEnded_eq (e : Session) :
    e.windowEnded =
      { e with
        count := if e.mode ≠ some .span then 0 else e.count, windowOpen := decide (e.mode ≠ some .span), elapsed := 0
        wrappedFlag := false, partialFlag := decide (e.mode ≠ some .span ∧ e.hold ≠ {}), windowEndDue := false
        active := (listsAt .atWindow e).1, staged := (listsAt .atWindow e).2 } := by
  unfold Session.windowEnded
  by_cases span : e.mode = some .span
  · simp only [span, if_true, Session.commitAt_eq, Session.clearWindow, ne_eq, not_true_eq_false, if_false, decide_false,
      false_and, listsAt]
  · simp only [span, if_false, Session.commitAt_eq, Session.beginWindow, ne_eq, not_false_eq_true, if_true, decide_true,
      true_and, HoldSet.not_isEmpty_eq, listsAt]

theorem Session.handsMarks_eq (e : Session) :
    e.handsMarks = { e with marksOut := if e.followers = [] then e.marksOut else e.marksOut ++ [e.followers] } := by
  unfold Session.handsMarks
  split <;> rfl

/-- The SAMPLE is offered to the session's report ring, if the window end posts one. -/
theorem postSample_eq (i : SessionId) (s : State) :
    let e := s.session i
    let sample := nextRecord i .sample .success 0
      (if e.mode = some .interval ∧ e.windowSource = some .own then e.windowLength.getD 0 else e.count)
      { isPartial := e.partialFlag, wrapped := e.wrappedFlag } s
    let u := postSample i s
    TableFrame s u ∧ OtherSessionsKept i s u ∧
      u.session i =
        { e with
          seq := if e.silent then e.seq else e.seq + 1
          lost := if e.silent then e.lost else lostAfterOffer i e sample s.reportRing } ∧
      ∀ q, u.reportRing q = if e.silent then s.reportRing q else offeredRing i e sample q (s.reportRing q) := by
  intro e sample u
  by_cases silent : e.silent
  · have runs : u = s := if_neg (mt e.postsSample_iff.mp (not_not.mpr silent))
    rw [runs]
    refine ⟨rfl, fun _ _ => rfl, ?_, fun q => (if_pos silent).symm⟩
    rw [if_pos silent, if_pos silent]
  · have runs : u = postRecord i .sample .success 0 e.sampleValue
        { isPartial := e.partialFlag, wrapped := e.wrappedFlag } s := if_pos (e.postsSample_iff.mpr silent)
    obtain ⟨rings, sessions⟩ := postRecord_eq i .sample .success 0 e.sampleValue
      { isPartial := e.partialFlag, wrapped := e.wrappedFlag } s
    rw [← runs, e.sampleValue_eq] at rings sessions
    refine ⟨runs ▸ tableFrame_postRecord i _ _ _ _ _ s, fun j other => ?_, ?_, fun q => ?_⟩
    · rw [sessions, if_neg other]
    · rw [sessions, if_pos rfl, if_neg silent, if_neg silent]
    · rw [rings, if_neg silent]

/-- A window end has all its effects, in the order of R45. -/
theorem windowEnd_endsAWindow (i : SessionId) (s : State) (agree : s.WaitsAgree) : EndsAWindow i s (windowEnd i s) := by
  unfold EndsAWindow
  intro e timed silent count lists sample
  obtain ⟨tables, others, entry, rings⟩ := postSample_eq i s
  let t := handMarks i ((postSample i s).updSession i Session.windowEnded)
  have frame : RecordFrame s t := tables.recordFrame.trans ((recordFrame_updSession _ i _).trans (recordFrame_updSession _ i _))
  have own : t.session i =
      { e with
        count := count, windowOpen := decide timed, elapsed := 0, wrappedFlag := false
        partialFlag := decide (timed ∧ e.hold ≠ {}), windowEndDue := false
        active := lists.1, staged := lists.2
        marksOut := if e.followers = [] then e.marksOut else e.marksOut ++ [e.followers]
        seq := if silent then e.seq else e.seq + 1
        lost := if silent then e.lost else lostAfterOffer i e sample s.reportRing } := by
    have ended : t.session i = ((postSample i s).session i).windowEnded.handsMarks := by
      simp [t, handMarks, State.session_updSession]
    rw [ended, entry, Session.handsMarks_eq, Session.windowEnded_eq]
    rfl
  have pool (x : WaitId) : t.wait x = s.wait x := tables.wait x
  have list : (t.session i).waits = e.waits := by rw [own]
  have agreed := agree.1 i
  obtain ⟨frame', others', session, wait, records⟩ := lowerWindows_lowered i (t.session i).waits t
    (list ▸ (agree.2.1 i).1) fun w listed => by
      rw [pool]
      exact (agree.1 i w).mp (list ▸ listed)
  have runs : windowEnd i s = lowerWindows (t.session i).waits t := rfl
  rw [← runs] at frame' others' session wait records
  have left : (t.session i).waits.diff ((t.session i).waits.filter (endsWait windowEnds t)) = keptWaits windowEnds i s := by
    rw [diff_ended_eq_keptWaits windowEnds i t (list ▸ (agree.2.1 i).1), keptWaits_congr windowEnds i list pool]
  refine ⟨frame.trans frame', fun j other => ?_, ?_, fun x => ?_, fun q => ?_⟩
  · rw [others' j other, ← others j other]
    simp [t, handMarks, State.session_updSession, other]
  · rw [session, left, own]
  · rw [wait, list, pool]
    cases s.wait x with
    | none => simp
    | some y =>
      unfold loweredWait
      by_cases listed : x ∈ e.waits
      · cases cond : y.cond <;> simp [listed, cond]
      · cases cond : y.cond <;> simp [listed, cond]
  · have offered : t.reportRing q = if silent then s.reportRing q else offeredRing i e sample q (s.reportRing q) := rings q
    rw [records q, ← waitRecords_eq, offered, own]
    exact congrArg (fun recs => handedRing recs q _) (waitRecords_congr windowEnds i count list pool frame.eventFrame)

/-! ### Window ends that steps have noted (R30, R54; log 11) -/

theorem windowEnd_windowEndDue (i j : SessionId) (s : State) (agree : s.WaitsAgree) :
    ((windowEnd i s).session j).windowEndDue = if j = i then false else (s.session j).windowEndDue := by
  obtain ⟨-, others, entry, -⟩ := windowEnd_endsAWindow i s agree
  by_cases own : j = i
  · rw [own, entry, if_pos rfl]
  · rw [others j own, if_neg own]

/-- One noted window end of a list, and then the others. -/
theorem settleList_taken (l : List SessionId) (s : State) (agree : s.WaitsAgree) :
    WindowEndsTaken l s (settleList l s) ∧ (settleList l s).WaitsAgree ∧
      ∀ j, ((settleList l s).session j).windowEndDue = (decide (j ∉ l) && (s.session j).windowEndDue) := by
  induction l generalizing s with
  | nil => exact ⟨rfl, agree, fun j => by simp [settleList]⟩
  | cons i rest ih =>
    rw [settleList]
    by_cases due : (s.session i).windowEndDue = true
    · rw [if_pos due]
      obtain ⟨taken, agree', cleared⟩ := ih (windowEnd i s) (agree.windowEnd i)
      refine ⟨⟨_, by rw [if_pos due]; exact windowEnd_endsAWindow i s agree, taken⟩, agree', fun j => ?_⟩
      rw [cleared, windowEnd_windowEndDue i j s agree]
      by_cases own : j = i <;> simp [own]
    · rw [if_neg due]
      obtain ⟨taken, agree', cleared⟩ := ih s agree
      refine ⟨⟨s, by rw [if_neg due], taken⟩, agree', fun j => ?_⟩
      rw [cleared]
      by_cases own : j = i
      · subst own
        simp [due]
      · simp [own]

theorem settle_taken (s : State) (agree : s.WaitsAgree) : WindowEndsTaken (List.finRange 32) s (settle s) :=
  (settleList_taken allSessions s agree).1

theorem settle_settled (s : State) (agree : s.WaitsAgree) : (settle s).settled := by
  intro j
  rw [settle, (settleList_taken allSessions s agree).2.2 j]
  simp [allSessions]

end Sys2Proof.Machine

/-!
PROOFS. Noted window ends come before the next event that reaches a session (R30, R48, R54; log 11), and pace marks (R44,
R58, R87, R89, R90).
-/

namespace Sys2Proof.Machine

/-! ### A window end is determined by what it says (R45) -/

theorem EndsAWindow.unique {i : SessionId} {s u v : State} (first : EndsAWindow i s u) (second : EndsAWindow i s v) :
    u = v := by
  obtain ⟨frame, others, entry, pool, rings⟩ := first
  obtain ⟨frame', others', entry', pool', rings'⟩ := second
  have sessions : u.sessions = v.sessions := State.sessions_ext v u fun j => by
    by_cases own : j = i
    · rw [own, entry, entry']
    · rw [others j own, others' j own]
  have waits : u.waits = v.waits := State.waits_ext v u fun x => (pool x).trans (pool' x).symm
  have reportRings : u.reportRings = v.reportRings := State.reportRings_ext v u fun q => (rings q).trans (rings' q).symm
  rw [frame, frame', sessions, waits, reportRings]

/-- A window end does not look at the take. -/
theorem EndsAWindow.withTaking {i : SessionId} {s u : State} (ends : EndsAWindow i s u) (taking : Option TakeInProgress) :
    EndsAWindow i { s with taking } { u with taking } := by
  obtain ⟨frame, others, entry, pool, rings⟩ := ends
  refine ⟨?_, others, entry, pool, rings⟩
  exact congrArg (fun x : State => { x with taking }) frame

theorem windowEnd_withTaking (i : SessionId) (s : State) (taking : Option TakeInProgress) (agree : s.WaitsAgree) :
    windowEnd i { s with taking } = { windowEnd i s with taking } := by
  have agree' : ({ s with taking } : State).WaitsAgree := agree
  exact (windowEnd_endsAWindow i _ agree').unique ((windowEnd_endsAWindow i s agree).withTaking taking)

theorem settleList_withTaking (l : List SessionId) (s : State) (taking : Option TakeInProgress) (agree : s.WaitsAgree) :
    settleList l { s with taking } = { settleList l s with taking } := by
  induction l generalizing s with
  | nil => rfl
  | cons i rest ih =>
    by_cases due : (s.session i).windowEndDue = true
    · have due' : (State.session { s with taking } i).windowEndDue = true := due
      rw [settleList, if_pos due', settleList, if_pos due, windowEnd_withTaking i s taking agree, ih _ (agree.windowEnd i)]
    · have due' : ¬(State.session { s with taking } i).windowEndDue = true := due
      rw [settleList, if_neg due', settleList, if_neg due, ih s agree]

theorem settle_withTaking_of_settled (s : State) (taking : Option TakeInProgress) (settled : s.settled) :
    settle { s with taking } = { s with taking } := settle_of_settled _ settled

/-! ### What the noted window ends leave as it was -/

/-- A wait that is still outstanding after a window end differs in its condition alone. -/
theorem windowEnd_wait (i : SessionId) (s : State) (agree : s.WaitsAgree) (x : WaitId) (z : WaitEntry)
    (left : (windowEnd i s).wait x = some z) : ∃ y, s.wait x = some y ∧ z = { y with cond := z.cond } := by
  obtain ⟨-, -, -, pool, -⟩ := windowEnd_endsAWindow i s agree
  rw [pool x] at left
  split at left
  next => cases left
  next y found =>
    refine ⟨y, found, ?_⟩
    split at left
    next n remaining cond =>
      split at left
      next =>
        split at left
        next => cases left
        next =>
          cases left
          rfl
      next =>
        cases left
        rfl
    all_goals
      cases left
      rfl

theorem settleList_wait (l : List SessionId) (s : State) (agree : s.WaitsAgree) (x : WaitId) (z : WaitEntry)
    (left : (settleList l s).wait x = some z) : ∃ y, s.wait x = some y ∧ z = { y with cond := z.cond } := by
  induction l generalizing s with
  | nil => exact ⟨z, left, rfl⟩
  | cons i rest ih =>
    rw [settleList] at left
    split at left
    next =>
      obtain ⟨y, found, same⟩ := ih _ (agree.windowEnd i) left
      obtain ⟨y', found', same'⟩ := windowEnd_wait i s agree x y found
      exact ⟨y', found', by rw [same, same']⟩
    next => exact ih s agree left

theorem handedRing_unwritten_prefix (recs : List (ReportRingId × ReportRecord)) (id : ReportRingId) (q : ReportRing) :
    q.unwritten <+: (handedRing recs id q).unwritten := by
  have placed (l : List ReportRecord) (q : ReportRing) : q.unwritten <+: (l.foldl ReportRing.withJob q).unwritten := by
    induction l generalizing q with
    | nil => exact List.prefix_rfl
    | cons rec rest ih => exact (List.prefix_append _ _).trans (ih (q.withJob rec))
  unfold handedRing
  split
  · exact placed _ q
  · exact List.prefix_rfl

theorem offeredRing_unwritten_prefix (i : SessionId) (e : Session) (rec : ReportRecord) (id : ReportRingId)
    (q : ReportRing) : q.unwritten <+: (offeredRing i e rec id q).unwritten := by
  unfold offeredRing ReportRing.withUnsolicited
  split
  · split
    · exact List.prefix_append _ _
    · split <;> exact List.prefix_rfl
  · exact List.prefix_rfl

/-- Window ends add unwritten records and take none away. -/
theorem settleList_unwritten_prefix (l : List SessionId) (s : State) (agree : s.WaitsAgree) (q : ReportRingId) :
    (s.reportRing q).unwritten <+: ((settleList l s).reportRing q).unwritten := by
  induction l generalizing s with
  | nil => exact List.prefix_rfl
  | cons i rest ih =>
    rw [settleList]
    split
    next =>
      obtain ⟨-, -, -, -, rings⟩ := windowEnd_endsAWindow i s agree
      refine List.IsPrefix.trans ?_ (ih _ (agree.windowEnd i))
      rw [rings q]
      refine List.IsPrefix.trans ?_ (handedRing_unwritten_prefix _ q _)
      split
      · exact List.prefix_rfl
      · exact offeredRing_unwritten_prefix _ _ _ q _
    next => exact ih s agree

/-! ### The events before which the noted window ends are taken (log 11) -/

theorem exec_tick (rate : TickRate) (order : List TickTurn) (s : State) :
    exec (.tick rate order) s = .next (tickList rate (planned TickTurn.isTick order allTicks) (settle s)) := rfl

theorem exec_paceMark (f : SessionId) (s : State) : exec (.paceMark f) s = .next (takeMark f (settle s)) := rfl

theorem exec_qualifiedEdge (lines : BitVec 16) (order : List Delivery) (s : State) (high : s.phase ≠ .hardwareReset)
    (ready : readyLines lines s ≠ 0) :
    exec (.qualifiedEdge lines order) s = .next (qualifiedEdges (readyLines lines s) order (settle s)) :=
  congrArg Host.Outcome.next (if_neg fun idle => idle.elim high ready)

theorem readyLines_bit (lines : BitVec 16) (s : State) (l : LineId) :
    (readyLines lines s).getLsbD l.val = (lines.getLsbD l.val && (s.line l).nearlyComplete) :=
  getLsbD_gathered_all (fun l => lines.getLsbD l.val && (s.line l).nearlyComplete) l

theorem readyLines_congr (lines : BitVec 16) (s t : State) (same : t.lines = s.lines) :
    readyLines lines t = readyLines lines s := by
  simp only [readyLines, State.line_congr s t same]

theorem readyLines_ne_zero (lines : BitVec 16) (s : State) (l : LineId) (named : lines.getLsbD l.val = true)
    (ready : (s.line l).width ≤ (s.line l).runCount + 1) : readyLines lines s ≠ 0 := by
  intro none
  have bit := readyLines_bit lines s l
  rw [none, named] at bit
  simp [InputLine.nearlyComplete, ready] at bit

theorem exec_waitTimeout_of_expired (x : WaitId) (s : State) (y : WaitEntry) (d : Word32) (found : s.wait x = some y)
    (expired : y.timer = some 0) (deadline : y.deadline = some d) :
    exec (.waitTimeout x) s = .next (completeWaitAt x .timeout d (settle s)) := by
  change Host.Outcome.next _ = _
  simp only [found, expired, deadline]

theorem exec_waitTimeout_of_free (x : WaitId) (s : State) (free : s.wait x = none) : exec (.waitTimeout x) s = .next s := by
  change Host.Outcome.next _ = _
  simp only [free]

theorem exec_reportRingDropped (s : State) (j : JobRingId) (q : ReportRingId) (tag : BitVec 16)
    (waits : s.taking = some { ring := j, stage := .dropping q tag }) (written : (s.reportRing q).unwritten = []) :
    exec .reportRingDropped s = .next (finishDrop q tag (settle { s with taking := none })) := by
  change Host.Outcome.next _ = _
  simp only [waits, written, if_true]

theorem timerExpired_iff (e : Session) : e.timerExpired = true ↔ TimerExpired e := by
  simp [Session.timerExpired, TimerExpired, and_assoc]

/-- Settles O49: the events by what their commands read, and the window end of each row. -/
theorem windowEndsTakeEffectWhole : Obligations.WindowEndsTakeEffectWhole := by
  unfold Obligations.WindowEndsTakeEffectWhole
  refine ⟨fun s agree => ?_, fun s i agree => ?_⟩
  · have frame := eventFrame_settle s
    have settled := settle_settled s agree
    have agree' := agree.settle
    have again := settle_of_settled (settle s) settled
    refine ⟨settle s, settle_taken s agree, settled, agree', fun rate order => ?_, fun f => ?_, fun lines order high ready => ?_,
      fun n f found => ?_, fun x y d found expired deadline => ?_, fun j q tag waits written => ?_⟩
    · rw [exec_tick, exec_tick, again]
    · rw [exec_paceMark, exec_paceMark, again]
    · obtain ⟨l, named, ready⟩ := ready
      have nonzero := readyLines_ne_zero lines s l named ready
      have same := readyLines_congr lines s (settle s) frame.lines
      rw [exec_qualifiedEdge lines order s high nonzero,
        exec_qualifiedEdge lines order (settle s) (by rw [frame.phase]; exact high) (by rw [same]; exact nonzero), same, again]
    · have found' : (settle s).fetches[n]? = some f := by rw [frame.fetches]; exact found
      refine ⟨fun entries whole => ?_, fun entry inside => ?_⟩
      · rw [exec_pointFetchDone _ _ _ found' settled entries whole]
        change execPointFetchDone n entries s = _
        simp only [execPointFetchDone, found, if_pos whole]
      · rw [exec_pointFetchError _ _ _ found' settled entry inside]
        change execPointFetchError n entry s = _
        simp only [execPointFetchError, found, if_neg (Nat.not_le.mpr inside)]
    · rw [exec_waitTimeout_of_expired x s y d found expired deadline]
      cases left : (settle s).wait x with
      | none =>
        rw [exec_waitTimeout_of_free x _ left]
        simp only [completeWaitAt, left]
      | some z =>
        obtain ⟨y', found', same⟩ := settleList_wait allSessions s agree x z left
        cases found.symm.trans found'
        rw [exec_waitTimeout_of_expired x (settle s) z d left (by rw [same, expired]) (by rw [same, deadline]), again]
    · have before : (s.reportRing q).unwritten = [] :=
        List.prefix_nil.mp (written ▸ settleList_unwritten_prefix allSessions s agree q)
      rw [exec_reportRingDropped s j q tag waits before,
        exec_reportRingDropped (settle s) j q tag (frame.taking.trans waits) written]
      have first : settle { s with taking := none } = { settle s with taking := none } :=
        settleList_withTaking allSessions s none agree
      have second : settle { settle s with taking := none } = { settle s with taking := none } :=
        settle_withTaking_of_settled (settle s) none settled
      rw [first, second]
  · intro e
    have ends := windowEnd_endsAWindow i s agree
    refine ⟨ends, fun expired => ⟨_, congrArg Host.Outcome.next (if_pos ((timerExpired_iff e).mpr expired)), ends⟩,
      fun running => congrArg Host.Outcome.next (if_neg (mt (timerExpired_iff e).mp running)),
      fun due => ⟨_, congrArg Host.Outcome.next (if_pos due), ends⟩,
      fun notDue => congrArg Host.Outcome.next (if_neg (Bool.eq_false_iff.mp notDue))⟩

/-! ### Pace marks (R58, R89, R90) -/

/-- The marks still out where none of an older event is the follower's. -/
theorem marksAfter_skip_all (f : SessionId) (older rest : List (List SessionId)) (others : ∀ g ∈ older, f ∉ g) :
    marksAfter f (older ++ rest) = (marksAfter f rest).map (older ++ ·) := by
  induction older with
  | nil => simp
  | cons g more ih =>
    rw [List.cons_append, marksAfter_skip f g _ (others g (by simp)), ih fun x listed => others x (by simp [listed])]
    simp [Function.comp_def]

/-- A follower takes its mark. -/
theorem takeMark_of_marksAfter (f p : SessionId) (s : State) (out : List (List SessionId))
    (pacer : (s.session f).pacer = some p) (after : marksAfter f (s.session p).marksOut = some out) :
    takeMark f s = actOnMark f (s.setSession p { s.session p with marksOut := out }) := by
  simp only [takeMark, pacer, after]
  rfl

theorem takeMark_of_none (f p : SessionId) (s : State) (pacer : (s.session f).pacer = some p)
    (after : marksAfter f (s.session p).marksOut = none) : takeMark f s = s := by
  simp only [takeMark, pacer, after]

theorem actOnMark_of_inactive (f : SessionId) (t : State) (inactive : (t.session f).state ≠ .active) :
    actOnMark f t = t := if_neg inactive

theorem actOnMark_of_window (f : SessionId) (t : State) (active : (t.session f).state = .active)
    (window : (t.session f).windowOpen = true) : actOnMark f t = windowEnd f t :=
  (if_pos active).trans (if_pos window)

/-- The first window of a follower begins (R44, R87). -/
theorem actOnMark_of_no_window (f : SessionId) (t : State) (active : (t.session f).state = .active)
    (window : (t.session f).windowOpen = false) :
    actOnMark f t =
      let e := t.session f
      let hold := { e.hold with pacer := false }
      t.setSession f
        { e with hold := hold, windowOpen := true, elapsed := 0, partialFlag := decide (hold ≠ {}), wrappedFlag := false } := by
  refine (if_pos active).trans ((if_neg (Bool.eq_false_iff.mp window)).trans ?_)
  simp only [State.updSession, Session.beginWindow, HoldSet.not_isEmpty_eq]

/-- Settles O50: the marks by whose turn it is, and the mark taken by the state and the window of its follower. -/
theorem paceMarksBeginAndEndWindows : Obligations.PaceMarksBeginAndEndWindows := by
  unfold Obligations.PaceMarksBeginAndEndWindows
  intro s f settled agree o
  have runs : o = .next (takeMark f s) := (exec_paceMark f s).trans (by rw [settle_of_settled s settled])
  refine ⟨fun none => ?_, fun p pacer => ?_⟩
  · rw [runs, takeMark_no_pacer f s none]
  intro out
  refine ⟨fun noMark => ?_, fun older group newer outIs others listed => ⟨fun notFirst => ?_, fun more first => ?_⟩⟩
  · rw [runs, takeMark_of_none f p s pacer (marksAfter_none f out noMark)]
  · have waits : marksAfter f out = none := by
      rw [outIs, marksAfter_skip_all f older _ others]
      cases group with
      | nil => cases listed
      | cons x more =>
        have other : x ≠ f := fun same => notFirst (by simp [same])
        have later : f ∈ more := (List.mem_cons.mp listed).resolve_left (Ne.symm other)
        rw [marksAfter_waits f x more newer other later, Option.map_none]
    rw [runs, takeMark_of_none f p s pacer waits]
  · intro t e hold
    have taken : marksAfter f out = some (older ++ if more = [] then newer else more :: newer) := by
      rw [outIs, marksAfter_skip_all f older _ others, first, marksAfter_head]
      rfl
    rw [runs, takeMark_of_marksAfter f p s _ pacer taken]
    have agree' : t.WaitsAgree := agree.updSession p
      (fun x => { x with marksOut := older ++ if more = [] then newer else more :: newer }) (fun _ => rfl) (fun _ => rfl)
    refine ⟨fun inactive => ?_, fun active window => ?_, fun active noWindow => ?_⟩
    · rw [actOnMark_of_inactive f t inactive]
    · rw [actOnMark_of_window f t active window]
      exact ⟨_, rfl, windowEnd_endsAWindow f t agree'⟩
    · rw [actOnMark_of_no_window f t active noWindow]

end Sys2Proof.Machine

/-!
PROOFS. The order in which the sessions of an instant have their turns, and the ticks (R39, R43, R48, R51, R54, R56; log 1,
log 12).
-/

namespace Sys2Proof.Machine

/-! ### Planned orders (log 1) -/

section Planned

variable {α : Type} [DecidableEq α] {isMember : α → Bool} {all : List α}

/-- An order that names every member once is followed as it stands. -/
theorem planned_of_plan (plan : List α) (once : (plan.filter isMember).Nodup)
    (named : ∀ x, isMember x = true → (x ∈ plan ↔ x ∈ all)) (members : ∀ x ∈ all, isMember x = true) :
    planned isMember plan all = plan := by
  have kept : plan.filter (fun x => !isMember x || decide (x ∈ all)) = plan := by
    refine List.filter_eq_self.mpr fun x listed => ?_
    cases member : isMember x with
    | false => rfl
    | true => simp [(named x member).mp listed]
  have rest : all.filter (· ∉ plan) = [] := by
    refine List.filter_eq_nil_iff.mpr fun x listed => ?_
    simp [(named x (members x listed)).mpr listed]
  rw [planned, if_pos once, kept, rest, List.append_nil]

variable (order : List α) (distinct : all.Nodup) (members : ∀ x ∈ all, isMember x = true)

theorem mem_planned_iff (x : α) (member : isMember x = true) : x ∈ planned isMember order all ↔ x ∈ all := by
  refine ⟨fun listed => (mem_planned isMember order all x listed).resolve_left (by simp [member]), fun listed => ?_⟩
  unfold planned
  split
  · by_cases named : x ∈ order <;> simp [named, listed]
  · exact listed

/-- An order all of whose members are of the instant comes first as it stands. -/
theorem planned_eq_order_append (once : (order.filter isMember).Nodup)
    (known : ∀ x ∈ order, isMember x = true → x ∈ all) :
    ∃ rest, planned isMember order all = order ++ rest ∧ ∀ x ∈ rest, x ∈ all := by
  have kept : order.filter (fun x => !isMember x || decide (x ∈ all)) = order := by
    refine List.filter_eq_self.mpr fun x named => ?_
    cases member : isMember x with
    | false => rfl
    | true => simp [known x named member]
  refine ⟨all.filter (· ∉ order), ?_, fun x listed => List.mem_of_mem_filter listed⟩
  rw [planned, if_pos once, kept]

include members distinct

/-- Each member stands once in what is planned. -/
theorem planned_once : ((planned isMember order all).filter isMember).Nodup := by
  have self (l : List α) (h : ∀ x ∈ l, isMember x = true) : l.filter isMember = l := List.filter_eq_self.mpr h
  unfold planned
  split
  next once =>
    rw [List.filter_append, List.filter_filter,
      self (all.filter _) fun x listed => members x (List.mem_of_mem_filter listed)]
    refine List.Nodup.append ?_ (distinct.filter _) fun x named missing => ?_
    · have swap : order.filter (fun x => isMember x && (!isMember x || decide (x ∈ all))) =
          (order.filter isMember).filter (fun x => decide (x ∈ all)) := by
        rw [List.filter_filter]
        refine List.filter_congr fun x _ => ?_
        cases isMember x <;> simp
      rw [swap]
      exact once.filter _
    · have notNamed := List.of_mem_filter missing
      simp [List.mem_of_mem_filter named] at notNamed
  next => rw [self all members]; exact distinct

omit distinct

/-- An order that names no member twice comes first, without what is no member of the instant. -/
theorem planned_eq_append (once : (order.filter isMember).Nodup) :
    ∃ rest, planned isMember order all = order.filter (fun x => decide (x ∈ planned isMember order all)) ++ rest ∧
      ∀ x ∈ rest, isMember x = true := by
  have split : planned isMember order all =
      order.filter (fun x => !isMember x || decide (x ∈ all)) ++ all.filter (· ∉ order) := if_pos once
  refine ⟨all.filter (· ∉ order), ?_, fun x listed => members x (List.mem_of_mem_filter listed)⟩
  rw [split]
  congr 1
  refine List.filter_congr fun x named => ?_
  simp [named]

end Planned

/-! ### A step of one session at the entries of the others -/

/-- Every entry differs in its wait list alone. -/
def SessionsKeepButWaits (s t : State) : Prop := ∀ j, ∃ l, t.session j = { s.session j with waits := l }

theorem SessionsKeepButWaits.refl (s : State) : SessionsKeepButWaits s s := fun _ => ⟨_, rfl⟩

theorem SessionsKeepButWaits.trans {s t u : State} (h : SessionsKeepButWaits s t) (g : SessionsKeepButWaits t u) :
    SessionsKeepButWaits s u := by
  intro j
  obtain ⟨l, first⟩ := h j
  obtain ⟨l', second⟩ := g j
  exact ⟨l', by rw [second, first]⟩

theorem completeWait_keepButWaits (w : WaitId) (status : Status) (s : State) :
    SessionsKeepButWaits s (completeWait w status s) := by
  intro j
  cases found : s.wait w with
  | none => exact ⟨_, by simp only [completeWait, completeWaitAt, found]; rfl⟩
  | some e =>
    have entry := completeWaitAt_session w status s.stamp s e found j
    split at entry <;> exact ⟨_, entry⟩

theorem completeList_keepButWaits (choose : WaitCond → Option Status) (l : List WaitId) (s : State) :
    SessionsKeepButWaits s (completeList choose l s) := by
  induction l generalizing s with
  | nil => exact .refl s
  | cons w rest ih =>
    simp only [completeList]
    split
    · exact ih s
    · split
      · exact ih s
      · exact (completeWait_keepButWaits w _ s).trans (ih _)

theorem lowerWindows_keepButWaits (l : List WaitId) (s : State) : SessionsKeepButWaits s (lowerWindows l s) := by
  induction l generalizing s with
  | nil => exact .refl s
  | cons w rest ih =>
    cases found : s.wait w with
    | none => simpa only [lowerWindows, found] using ih s
    | some e =>
      rw [lowerWindows_cons w rest s e found]
      cases loweredWait e with
      | none => exact (completeWait_keepButWaits w .success s).trans (ih _)
      | some e' => exact ih (s.setWait w (some e'))

/-- The entries of the other sessions differ in their wait lists alone. -/
def OthersKeepButWaits (i : SessionId) (s t : State) : Prop :=
  ∀ j, j ≠ i → ∃ l, t.session j = { s.session j with waits := l }

theorem OthersKeepButWaits.refl (i : SessionId) (s : State) : OthersKeepButWaits i s s := fun _ _ => ⟨_, rfl⟩

theorem OthersKeepButWaits.trans {i : SessionId} {s t u : State} (h : OthersKeepButWaits i s t)
    (g : OthersKeepButWaits i t u) : OthersKeepButWaits i s u := by
  intro j other
  obtain ⟨l, first⟩ := h j other
  obtain ⟨l', second⟩ := g j other
  exact ⟨l', by rw [second, first]⟩

theorem OthersKeepButWaits.ite {i : SessionId} {s t : State} {c : Prop} [Decidable c] (h : OthersKeepButWaits i s t) :
    OthersKeepButWaits i s (if c then t else s) := by
  split
  · exact h
  · exact .refl i s

theorem othersKeepButWaits_updSession (i : SessionId) (s : State) (f : Session → Session) :
    OthersKeepButWaits i s (s.updSession i f) := by
  intro j other
  exact ⟨_, (State.session_updSession s i j f).trans (if_neg other)⟩

theorem othersKeepButWaits_postRecord (i : SessionId) (kind : UnsolicitedKind) (status : Status) (index value : Nat)
    (flags : RecordFlags) (s : State) : OthersKeepButWaits i s (postRecord i kind status index value flags s) := by
  intro j other
  exact ⟨_, ((postRecord_eq i kind status index value flags s).2 j).trans (if_neg other)⟩

theorem SessionsKeepButWaits.others {s t : State} (h : SessionsKeepButWaits s t) (i : SessionId) :
    OthersKeepButWaits i s t := fun j _ => h j

theorem othersKeepButWaits_meetWaits (i : SessionId) (met : WaitCond → Bool) (s : State) :
    OthersKeepButWaits i s (meetWaits i met s) := (completeList_keepButWaits _ _ s).others i

theorem othersKeepButWaits_hitActions (i : SessionId) (dir : Direction) (index : Nat) (a : Actions) (s : State) :
    OthersKeepButWaits i s (hitActions i dir index a s) := by
  have output (t : State) :
      OthersKeepButWaits i t (match a.output with | none => t | some (line, kind) => outputAction i line kind t) := by
    split <;> exact .refl i t
  have latch : OthersKeepButWaits i s (if a.latch then latchAction i s else s) :=
    (othersKeepButWaits_updSession i s _).ite
  have report (t : State) : OthersKeepButWaits i t (if a.report then reportAction i dir index t else t) :=
    (othersKeepButWaits_postRecord i _ _ _ _ _ t).ite
  have pace (t : State) : OthersKeepButWaits i t (if a.pace then handMarks i t else t) :=
    (othersKeepButWaits_updSession i t _).ite
  exact ((latch.trans (report _)).trans (output _)).trans (pace _)

theorem othersKeepButWaits_lateActions (i : SessionId) (a : Actions) (s : State) :
    OthersKeepButWaits i s (lateActions i a s) := by
  have zero : OthersKeepButWaits i s (if a.zero then changeCount i 0 s else s) :=
    ((othersKeepButWaits_updSession i s _).trans (othersKeepButWaits_meetWaits i _ _)).ite
  have hold (t : State) : OthersKeepButWaits i t (if a.hold then t.updSession i Session.joinHost else t) :=
    (othersKeepButWaits_updSession i t _).ite
  exact zero.trans (hold _)

theorem othersKeepButWaits_stepSession (i : SessionId) (dir : Direction) (s : State) :
    OthersKeepButWaits i s (stepSession i dir s) := by
  have stepped := othersKeepButWaits_updSession i s (·.steppedAndCommitted dir)
  have noted (count : Nat) (t : State) : OthersKeepButWaits i t (noteWindowEnd i count t) :=
    (othersKeepButWaits_updSession i t _).ite
  unfold stepSession
  dsimp only
  split
  · exact (stepped.trans (othersKeepButWaits_meetWaits i _ _)).trans (noted _ _)
  · exact (((stepped.trans (othersKeepButWaits_hitActions i _ _ _ _)).trans (othersKeepButWaits_meetWaits i _ _)).trans
      (othersKeepButWaits_lateActions i _ _)).trans (noted _ _)

theorem othersKeepButWaits_windowEnd (i : SessionId) (s : State) : OthersKeepButWaits i s (windowEnd i s) := by
  have sampled : OthersKeepButWaits i s (postSample i s) := (othersKeepButWaits_postRecord i _ _ _ _ _ s).ite
  exact ((sampled.trans (othersKeepButWaits_updSession i _ _)).trans (othersKeepButWaits_updSession i _ _)).trans
    ((lowerWindows_keepButWaits _ _).others i)

/-! ### A tick at a session (R43) -/

theorem stepIfCounting_of_active (i : SessionId) (dir : Direction) (s : State) (active : (s.session i).state = .active) :
    stepIfCounting i dir s = if (s.session i).hold = {} then stepSession i dir s else s := by
  unfold stepIfCounting
  exact if_congr ((Session.counts_iff _).trans (and_iff_right active)) rfl rfl

section Tick

variable (rate : TickRate) (k : SessionId) (t : State)

theorem tickSession_of_other (other : ¬((t.session k).state = .active ∧ (t.session k).tick = some rate)) :
    tickSession rate k t = t := if_neg other

variable (selected : (t.session k).state = .active ∧ (t.session k).tick = some rate)

include selected

theorem tickSession_of_rate (mode : (t.session k).mode = some .rate) (source : (t.session k).windowSource = some .own) :
    tickSession rate k t = rateTick k t := by
  refine (if_pos selected).trans ?_
  simp only [mode, source]

theorem tickSession_of_span (mode : (t.session k).mode = some .span) :
    tickSession rate k t =
      if (t.session k).windowOpen = true ∧ (t.session k).hold = {} then stepSession k .up t else t := by
  refine (if_pos selected).trans ?_
  simp only [mode, stepIfCounting_of_active k .up t selected.1]
  rw [← ite_and]

theorem tickSession_of_interval (mode : (t.session k).mode = some .interval) :
    tickSession rate k t = if (t.session k).hold = {} then stepSession k .up t else t := by
  refine (if_pos selected).trans ?_
  simp only [mode, stepIfCounting_of_active k .up t selected.1]

end Tick

theorem rateTick_of_running (k : SessionId) (t : State) (running : ¬TimerExpired (t.session k)) :
    rateTick k t =
      if (t.session k).windowOpen = true then
        t.setSession k { t.session k with elapsed := (t.session k).elapsed + 1 }
      else t := by
  have notExpired : (t.session k).timerExpired ≠ true := mt (timerExpired_iff _).mp running
  simp only [rateTick, if_neg notExpired]
  rfl

/-- The next window of a RATE session is in progress with nothing elapsed once the one before has ended (R43, R45). -/
theorem windowEnd_window (i : SessionId) (s : State) (timed : (s.session i).mode ≠ some .span) :
    ((windowEnd i s).session i).windowOpen = true ∧ ((windowEnd i s).session i).elapsed = 0 := by
  obtain ⟨-, -, entry, -⟩ := postSample_eq i s
  obtain ⟨l, lowered⟩ := lowerWindows_keepButWaits
    ((handMarks i ((postSample i s).updSession i Session.windowEnded)).session i).waits
    (handMarks i ((postSample i s).updSession i Session.windowEnded)) i
  have ended : (handMarks i ((postSample i s).updSession i Session.windowEnded)).session i =
      ((postSample i s).session i).windowEnded.handsMarks := by
    simp [handMarks, State.session_updSession]
  have own : (windowEnd i s).session i = _ := lowered
  rw [own, ended, entry, Session.handsMarks_eq, Session.windowEnded_eq]
  exact ⟨decide_eq_true timed, rfl⟩

theorem rateTick_of_expired (k : SessionId) (t : State) (expired : TimerExpired (t.session k)) :
    rateTick k t = (windowEnd k t).setSession k { (windowEnd k t).session k with elapsed := 1 } := by
  have timed : (t.session k).mode ≠ some .span := by simp [expired.2.1]
  obtain ⟨window, elapsed⟩ := windowEnd_window k t timed
  simp only [rateTick, if_pos ((timerExpired_iff _).mpr expired), if_pos window, State.updSession, elapsed]

theorem othersKeepButWaits_tickSession (rate : TickRate) (k : SessionId) (s : State) :
    OthersKeepButWaits k s (tickSession rate k s) := by
  have step : OthersKeepButWaits k s (stepIfCounting k .up s) := (othersKeepButWaits_stepSession k .up s).ite
  have ticked (t : State) :
      OthersKeepButWaits k t
        (if (t.session k).windowOpen then t.updSession k (fun e => { e with elapsed := e.elapsed + 1 }) else t) :=
    (othersKeepButWaits_updSession k t _).ite
  have ended : OthersKeepButWaits k s (if (s.session k).timerExpired then windowEnd k s else s) :=
    (othersKeepButWaits_windowEnd k s).ite
  unfold tickSession
  dsimp only
  split
  · split
    · exact ended.trans (ticked _)
    · exact step.ite
    · exact step
    · exact .refl k s
  · exact .refl k s

/-! ### The instant of a tick (R43; log 1) -/

theorem tickList_eq_foldl (rate : TickRate) (l : List TickTurn) (s : State) :
    tickList rate l s = l.foldl (fun u x => takeTurn rate x u) s := by
  induction l generalizing s with
  | nil => rfl
  | cons x rest ih => exact ih _

theorem allTicks_nodup : allTicks.Nodup :=
  (List.nodup_finRange 32).map fun _ _ same => congrArg Prod.fst same

theorem mem_allTicks (x : TickTurn) : x ∈ allTicks ↔ x.2 = .tick := by
  obtain ⟨k, part⟩ := x
  simp [allTicks, allSessions, eq_comm]

theorem isTick_iff (x : TickTurn) : x.isTick = true ↔ x.2 = .tick := beq_iff_eq

theorem allTicks_isTick (x : TickTurn) (listed : x ∈ allTicks) : x.isTick = true :=
  (isTick_iff x).mpr ((mem_allTicks x).mp listed)

theorem isTick_eq : TickTurn.isTick = fun x => decide (x.2 = .tick) := by
  funext x
  rw [Bool.eq_iff_iff, isTick_iff, decide_eq_true_iff]

theorem tickPlan_iff (plan : List TickTurn) :
    TickPlan plan ↔ (plan.filter TickTurn.isTick).Nodup ∧ ∀ x, TickTurn.isTick x = true → (x ∈ plan ↔ x ∈ allTicks) := by
  have every : (∀ k, (k, TickPart.tick) ∈ plan) ↔ ∀ x, TickTurn.isTick x = true → (x ∈ plan ↔ x ∈ allTicks) := by
    refine ⟨fun named x tick => ?_, fun named k => ?_⟩
    · obtain ⟨k, part⟩ := x
      cases (isTick_iff _).mp tick
      simp [named k, mem_allTicks]
    · exact (named (k, .tick) rfl).mpr ((mem_allTicks _).mpr rfl)
  rw [TickPlan, isTick_eq, ← isTick_eq, every]

theorem exec_tick_of_settled (rate : TickRate) (order : List TickTurn) (s : State) (settled : s.settled) :
    exec (.tick rate order) s =
      .next ((planned TickTurn.isTick order allTicks).foldl (fun u x => takeTurn rate x u) s) := by
  rw [exec_tick, settle_of_settled s settled, tickList_eq_foldl]

/-- Ticks that reach no session. -/
theorem foldl_ticks_of_none (rate : TickRate) (l : List TickTurn) (s : State)
    (none : ∀ x ∈ l, x.2 = .tick ∧ ¬((s.session x.1).state = .active ∧ (s.session x.1).tick = some rate)) :
    l.foldl (fun u x => takeTurn rate x u) s = s := by
  induction l with
  | nil => rfl
  | cons x rest ih =>
    obtain ⟨tick, other⟩ := none x (by simp)
    have turn : takeTurn rate x s = s := by
      simp only [takeTurn, tick]
      exact tickSession_of_other rate x.1 s other
    rw [List.foldl_cons, turn]
    exact ih fun y listed => none y (by simp [listed])

/-- An instant at which no session but one takes the tick. -/
theorem foldl_ticks_of_one (rate : TickRate) (k : SessionId) (plan : List TickTurn) (s : State) (ticks : ∀ x ∈ plan, x.2 = .tick)
    (once : plan.Nodup) (named : (k, TickPart.tick) ∈ plan)
    (others : ∀ j, j ≠ k → ¬((s.session j).state = .active ∧ (s.session j).tick = some rate)) :
    plan.foldl (fun u x => takeTurn rate x u) s = tickSession rate k s := by
  obtain ⟨before, after, parts⟩ := List.append_of_mem named
  have notOwn : ∀ x ∈ before ++ after, x.2 = .tick ∧ x.1 ≠ k := by
    intro x listed
    have distinct := List.nodup_middle.mp (parts ▸ once)
    have tick : x.2 = .tick := ticks x (by rw [parts]; simp only [List.mem_append, List.mem_cons] at listed ⊢; tauto)
    refine ⟨tick, fun own => ?_⟩
    obtain rfl : x = (k, .tick) := Prod.ext own tick
    exact (List.nodup_cons.mp distinct).1 listed
  rw [parts, List.foldl_append, List.foldl_cons,
    foldl_ticks_of_none rate before s fun x listed =>
      have h := notOwn x (by simp [listed])
      ⟨h.1, others x.1 h.2⟩]
  refine foldl_ticks_of_none rate after (tickSession rate k s) fun x listed => ?_
  obtain ⟨tick, other⟩ := notOwn x (by simp [listed])
  obtain ⟨waits, kept⟩ := othersKeepButWaits_tickSession rate k s x.1 other
  refine ⟨tick, ?_⟩
  rw [kept]
  exact others x.1 other

/-- A tick at a session that selects it, by its mode. -/
theorem tickSession_of_selected (rate : TickRate) (k : SessionId) (t : State)
    (selected : (t.session k).state = .active ∧ (t.session k).tick = some rate) :
    let e := t.session k
    let u := tickSession rate k t
    (e.mode = some .rate → e.windowSource = some .own →
        (¬TimerExpired e → u = if e.windowOpen = true then t.setSession k { e with elapsed := e.elapsed + 1 } else t) ∧
        (TimerExpired e → u = (windowEnd k t).setSession k { (windowEnd k t).session k with elapsed := 1 })) ∧
      (e.mode = some .span → u = if e.windowOpen = true ∧ e.hold = {} then stepSession k .up t else t) ∧
      (e.mode = some .interval → u = if e.hold = {} then stepSession k .up t else t) := by
  intro e u
  refine ⟨fun mode source => ?_, tickSession_of_span rate k t selected, tickSession_of_interval rate k t selected⟩
  have runs : u = rateTick k t := tickSession_of_rate rate k t selected mode source
  exact ⟨fun running => runs.trans (rateTick_of_running k t running),
    fun expired => runs.trans (rateTick_of_expired k t expired)⟩

/-- Settles O43: the instant at which one session takes the tick, the plans of an instant, and the turns. -/
theorem ticksDriveTimedSessions : Obligations.TicksDriveTimedSessions := by
  unfold Obligations.TicksDriveTimedSessions
  refine ⟨fun s rate order k settled ticks others => ?_, fun s rate settled => ⟨fun plan isPlan => ?_, fun order => ?_⟩,
    fun t rate k => ?_⟩
  · intro e o
    have planTicks : ∀ x ∈ planned TickTurn.isTick order allTicks, x.isTick = true := by
      intro x listed
      unfold planned at listed
      split at listed
      · rcases List.mem_append.mp listed with named | missing
        · exact (isTick_iff x).mpr (ticks x (List.mem_of_mem_filter named))
        · exact allTicks_isTick x (List.mem_of_mem_filter missing)
      · exact allTicks_isTick x listed
    have once := planned_once order allTicks_nodup allTicks_isTick
    rw [List.filter_eq_self.mpr planTicks] at once
    have runs : o = .next (tickSession rate k s) := by
      refine (exec_tick_of_settled rate order s settled).trans (congrArg Host.Outcome.next ?_)
      exact foldl_ticks_of_one rate k _ s (fun x listed => (isTick_iff x).mp (planTicks x listed)) once
        ((mem_planned_iff order (k, .tick) rfl).mpr ((mem_allTicks _).mpr rfl)) others
    refine ⟨fun other => ?_, fun active tick => ?_⟩
    · rw [runs, tickSession_of_other rate k s other]
    · obtain ⟨rated, span, interval⟩ := tickSession_of_selected rate k s ⟨active, tick⟩
      refine ⟨fun mode source notDue => ?_, fun mode => ?_, fun mode => ?_⟩
      · rw [runs, (rated mode source).1 fun expired => notDue expired.2.2.2.2]
      · rw [runs, span mode]
      · rw [runs, interval mode]
  · obtain ⟨once, named⟩ := (tickPlan_iff plan).mp isPlan
    rw [exec_tick_of_settled rate plan s settled, planned_of_plan plan once named allTicks_isTick]
  · refine ⟨planned TickTurn.isTick order allTicks, (tickPlan_iff _).mpr
      ⟨planned_once order allTicks_nodup allTicks_isTick, fun x => mem_planned_iff order x⟩,
      exec_tick_of_settled rate order s settled, fun once => ?_⟩
    obtain ⟨rest, parts, listed⟩ := planned_eq_order_append order (isTick_eq ▸ once) fun x _ tick =>
      (mem_allTicks x).mpr ((isTick_iff x).mp tick)
    exact ⟨rest, parts, fun x inRest => (mem_allTicks x).mp (listed x inRest)⟩
  · intro e u due
    have isDue : (e.timerExpired || e.windowEndDue) = true ↔ due := by
      rw [Bool.or_eq_true, timerExpired_iff]
    refine ⟨tickSession_of_other rate k t, fun active tick => ?_, fun h => if_pos (isDue.mpr h),
      fun h => if_neg (mt isDue.mp h), fun settled => ?_⟩
    · obtain ⟨rated, span, interval⟩ := tickSession_of_selected rate k t ⟨active, tick⟩
      refine ⟨fun mode source => ⟨fun closed => ?_, fun window notDue => ?_, fun window elapsed => ?_⟩, span, interval⟩
      · exact ((rated mode source).1 fun expired => Bool.false_ne_true (closed.symm.trans expired.2.2.2.1)).trans (if_neg (by simp [e, closed]))
      · exact ((rated mode source).1 fun expired => notDue expired.2.2.2.2).trans (if_pos window)
      · exact (rated mode source).2 ⟨active, mode, source, window, elapsed⟩
    · rw [exec_paceMark, settle_of_settled t settled]
      rfl

end Sys2Proof.Machine

/-!
PROOFS. Qualified edges: who hears them, in which order, and what each delivery does (R2, R21 to R23, R27, R44, R50, R52, R86,
R114, R115; log 1, log 19).
-/

namespace Sys2Proof.Machine

/-! ### Who hears the edges (R21, R115) -/

theorem Session.hears_iff (e : Session) (changed : BitVec 16) (role : EdgeRole) :
    e.hears changed role = true ↔ HearsIn changed e role := by
  have among (line : Option LineId) :
      line.any (fun x => changed.getLsbD x.val) = true ↔ ∃ l, line = some l ∧ changed.getLsbD l.val = true := by
    cases line <;> simp
  unfold Session.hears HearsIn
  rw [Bool.and_eq_true, decide_eq_true_iff]
  refine and_congr_right fun _ => ?_
  cases role with
  | phase => simp only [Bool.or_eq_true, Bool.and_eq_true, decide_eq_true_iff, among]
  | lineB => simp only [Bool.and_eq_true, decide_eq_true_iff, among]
  | inhibit => simp only [among]
  | mark => simp

theorem heardBy_nodup (changed : BitVec 16) (s : State) : (heardBy changed s).Nodup := by
  refine List.nodup_flatMap.mpr ⟨fun i _ => ?_, (List.nodup_finRange 32).imp fun {i j} other => ?_⟩
  · exact ((by decide : [EdgeRole.phase, .lineB, .inhibit].Nodup).filter _).map fun _ _ same => congrArg Prod.snd same
  · intro d first second
    obtain ⟨_, _, rfl⟩ := List.mem_map.mp first
    obtain ⟨_, _, same⟩ := List.mem_map.mp second
    exact other (congrArg Prod.fst same).symm

theorem heardBy_congr (changed : BitVec 16) (s t : State) (same : t.sessions = s.sessions) :
    heardBy changed t = heardBy changed s := by
  simp only [heardBy, State.session_congr s t same]

theorem isEdge_iff (d : Delivery) : d.isEdge = true ↔ d.2 ≠ .mark := bne_iff_ne

theorem isEdge_eq : Delivery.isEdge = fun d => decide (d.2 ≠ .mark) := by
  funext d
  rw [Bool.eq_iff_iff, isEdge_iff, decide_eq_true_iff]

theorem heardBy_isEdge (changed : BitVec 16) (s : State) (d : Delivery) (heard : d ∈ heardBy changed s) :
    d.isEdge = true := (isEdge_iff d).mpr ((mem_heardBy changed s d).mp heard).1

theorem edgePlan_iff (changed : BitVec 16) (s : State) (plan : List Delivery) :
    EdgePlan changed s plan ↔
      (plan.filter Delivery.isEdge).Nodup ∧ ∀ d, d.isEdge = true → (d ∈ plan ↔ d ∈ heardBy changed s) := by
  have heard (k : SessionId) (role : EdgeRole) (edge : role ≠ .mark) :
      (k, role) ∈ heardBy changed s ↔ HearsIn changed (s.session k) role := by
    rw [mem_heardBy, Session.hears_iff]
    exact and_iff_right edge
  rw [EdgePlan, ← isEdge_eq]
  refine and_congr_right fun _ => ⟨fun named d edge => ?_, fun named k role edge => ?_⟩
  · have edge := (isEdge_iff d).mp edge
    exact (named d.1 d.2 edge).trans (heard d.1 d.2 edge).symm
  · exact (named (k, role) ((isEdge_iff _).mpr edge)).trans (heard k role edge)

theorem deliverList_eq_foldl (l : List Delivery) (s : State) : deliverList l s = l.foldl (fun u d => deliver d u) s := by
  induction l generalizing s with
  | nil => rfl
  | cons d rest ih => exact ih _

/-! ### The instant of the edges (R22, R114) -/

/-- The lines that a word names and whose filters complete their runs. -/
theorem readyLines_bit_iff (lines : BitVec 16) (s : State) (l : LineId) :
    (readyLines lines s).getLsbD l.val = true ↔ lines.getLsbD l.val = true ∧ (s.line l).width ≤ (s.line l).runCount + 1 := by
  rw [readyLines_bit, Bool.and_eq_true, InputLine.nearlyComplete, decide_eq_true_iff]

/-- Words of sixteen lines with the same lines are the same. -/
theorem lines_ext (x y : BitVec 16) (same : ∀ l : LineId, x.getLsbD l.val = y.getLsbD l.val) : x = y :=
  BitVec.eq_of_getLsbD_eq fun n inside => same ⟨n, inside⟩

theorem exec_qualifiedEdge_of_none (lines : BitVec 16) (order : List Delivery) (s : State) (none : readyLines lines s = 0) :
    exec (.qualifiedEdge lines order) s = .next s := congrArg Host.Outcome.next (if_pos (.inr none))

theorem acceptLines_level (lines : BitVec 16) (s : State) (l : LineId) :
    (acceptLines lines allLines s).line l =
      if lines.getLsbD l.val = true then { s.line l with accepted := !(s.line l).accepted, runCount := 0 } else s.line l := by
  rw [acceptLines_line lines allLines s l (List.nodup_finRange 16)]
  exact if_congr (and_iff_right (List.mem_finRange l)) rfl rfl

/-- The deliveries of the instant, in the planned order. -/
theorem qualifiedEdges_eq_foldl (lines : BitVec 16) (order : List Delivery) (s : State) :
    qualifiedEdges lines order s =
      (planned Delivery.isEdge order (heardBy lines s)).foldl (fun u d => deliver d u) (acceptLines lines allLines s) := by
  have sessions : (acceptLines lines allLines s).sessions = s.sessions := by rw [acceptLines_frame]
  rw [qualifiedEdges, handEdges, deliverList_eq_foldl, heardBy_congr lines s _ sessions]

theorem exec_qualifiedEdge_of_settled (lines changed : BitVec 16) (order : List Delivery) (s : State)
    (high : s.phase ≠ .hardwareReset) (settled : s.settled) (nonzero : changed ≠ 0)
    (ready : readyLines lines s = changed) :
    exec (.qualifiedEdge lines order) s =
      .next ((planned Delivery.isEdge order (heardBy changed s)).foldl (fun u d => deliver d u)
        (acceptLines changed allLines s)) := by
  rw [exec_qualifiedEdge lines order s high (ready ▸ nonzero), settle_of_settled s settled, ready, qualifiedEdges_eq_foldl]

/-! ### The deliveries by role -/

theorem EdgeSelect.qualifies_eq_selects (select : EdgeSelect) (rising : Bool) :
    select.qualifies rising = selects select rising := by
  cases select <;> rfl

/-- A session that counts makes the step, one that does not makes none (R2). -/
theorem stepIfCounting_eq (i : SessionId) (dir : Direction) (s : State) :
    (Counts (s.session i) → stepIfCounting i dir s = stepSession i dir s) ∧
      (¬Counts (s.session i) → stepIfCounting i dir s = s) :=
  ⟨fun counts => if_pos ((Session.counts_iff _).mpr counts), fun idle => if_neg (mt (Session.counts_iff _).mp idle)⟩

/-- A step under a condition on the levels. -/
theorem stepIfCounting_ite (i : SessionId) (dir : Direction) (s : State) (c : Bool) :
    let u := if c = true then stepIfCounting i dir s else s
    (Counts (s.session i) → c = true → u = stepSession i dir s) ∧ (¬(Counts (s.session i) ∧ c = true) → u = s) := by
  intro u
  obtain ⟨counting, idle⟩ := stepIfCounting_eq i dir s
  refine ⟨fun counts holds => (if_pos holds).trans (counting counts), fun not => ?_⟩
  by_cases holds : c = true
  · exact (if_pos holds).trans (idle fun counts => not ⟨counts, holds⟩)
  · exact if_neg holds

section Roles

variable (t : State) (k : SessionId) (l : LineId)

theorem phaseEdge_of_quad (mode : (t.session k).mode = some .quad) : phaseEdge k t = pairSample k t := by
  simp only [phaseEdge, mode]

theorem phaseEdge_of_select (select : EdgeSelect) (line : (t.session k).lineA = some l)
    (mode : (t.session k).mode = some .tally ∨ (t.session k).mode = some .rate)
    (edges : (t.session k).edgeSelect = some select) :
    phaseEdge k t = if selects select (t.level l) = true then stepIfCounting k .up t else t := by
  rcases mode with mode | mode <;>
    simp only [phaseEdge, mode, line, edges, Option.any_some, EdgeSelect.qualifies_eq_selects]

theorem phaseEdge_of_split (line : (t.session k).lineA = some l) (mode : (t.session k).mode = some .split) :
    phaseEdge k t = if t.level l = true then stepIfCounting k .up t else t := by
  simp only [phaseEdge, mode, line]

theorem phaseEdge_of_span (line : (t.session k).lineA = some l) (mode : (t.session k).mode = some .span) :
    phaseEdge k t = gateEdge k (t.level l) t := by
  simp only [phaseEdge, mode, line]

/-- A rise opens a span where none is in progress (R50). -/
theorem gateEdge_of_rise (active : (t.session k).state = .active) (closed : (t.session k).windowOpen = false) :
    gateEdge k true t =
      let e := t.session k
      t.setSession k
        { e with count := 0, windowOpen := true, elapsed := 0, partialFlag := decide (e.hold ≠ {}), wrappedFlag := false } := by
  simp only [gateEdge, active, if_true, closed, Bool.false_eq_true, if_false, State.updSession, Session.beginWindow,
    HoldSet.not_isEmpty_eq]

/-- A fall ends the span in progress (R52). -/
theorem gateEdge_of_fall (active : (t.session k).state = .active) (window : (t.session k).windowOpen = true) :
    gateEdge k false t = windowEnd k t := by
  simp only [gateEdge, active, if_true, Bool.false_eq_true, if_false, window]

theorem gateEdge_of_neither (rising : Bool) (neither : (t.session k).state ≠ .active ∨ rising = (t.session k).windowOpen) :
    gateEdge k rising t = t := by
  unfold gateEdge
  by_cases active : (t.session k).state = .active
  · have level := neither.resolve_left (not_not.mpr active)
    cases rising <;> simp [← level]
  · exact if_neg active

theorem lineBEdge_of_line (line : (t.session k).lineB = some l) :
    lineBEdge k t = if t.level l = true then stepIfCounting k .down t else t := by
  simp only [lineBEdge, line]

theorem Session.joinInhibit_eq (e : Session) :
    e.joinInhibit =
      { e with hold := { e.hold with inhibit := true }, partialFlag := e.partialFlag || (!e.hold.inhibit && e.windowOpen) } := by
  unfold Session.joinInhibit
  split
  next held =>
    have same : ({ e.hold with inhibit := true } : HoldSet) = e.hold := by rw [← held]
    rw [same, held]
    simp
  next free => simp [Bool.eq_false_iff.mpr free]

/-- The inhibit line moves INHIBIT, and a hold that begins marks the window partial (R44, R86). -/
theorem inhibitEdge_of_line (line : (t.session k).inhibitLine = some l) :
    inhibitEdge k t =
      let e := t.session k
      t.setSession k
        { e with hold := { e.hold with inhibit := t.level l }
                 partialFlag := e.partialFlag || (t.level l && !e.hold.inhibit && e.windowOpen) } := by
  simp only [inhibitEdge, line, State.updSession, Session.joinInhibit_eq]
  cases t.level l <;> simp

end Roles

/-- Settles O41: the instant and its plans, and each delivery by its role. -/
theorem edgesActByRole : Obligations.EdgesActByRole := by
  unfold Obligations.EdgesActByRole
  refine ⟨fun s lines high settled => ?_, fun t k settled => ?_, fun t k l => ?_, fun t k l => ?_, fun t k l line => ?_⟩
  · intro completes
    refine ⟨fun none order => exec_qualifiedEdge_of_none lines order s ?_, fun changed nonzero isChanged => ?_⟩
    · refine lines_ext _ 0 fun l => ?_
      have zero : (0 : BitVec 16).getLsbD l.val = false := BitVec.getLsbD_zero
      exact (Bool.eq_false_iff.mpr (mt (readyLines_bit_iff lines s l).mp (none l))).trans zero.symm
    · have ready : readyLines lines s = changed := lines_ext _ _ fun l => by
        rw [Bool.eq_iff_iff, readyLines_bit_iff, isChanged]
      have runs (order : List Delivery) := exec_qualifiedEdge_of_settled lines changed order s high settled nonzero ready
      have members := heardBy_isEdge changed s
      refine ⟨acceptLines changed allLines s, acceptLines_frame _ _ _, acceptLines_level changed s, fun plan isPlan => ?_,
        fun order => ?_⟩
      · obtain ⟨once, named⟩ := (edgePlan_iff changed s plan).mp isPlan
        rw [runs, planned_of_plan plan once named members]
      · refine ⟨_, (edgePlan_iff changed s _).mpr
          ⟨planned_once order (heardBy_nodup changed s) members, fun d => mem_planned_iff order d⟩, runs order, fun once => ?_⟩
        obtain ⟨rest, parts, edges⟩ := planned_eq_append order members (isEdge_eq ▸ once)
        exact ⟨rest, by convert parts, fun d listed => (isEdge_iff d).mp (edges d listed)⟩
  · rw [exec_paceMark, settle_of_settled t settled]
    rfl
  · intro e u
    refine ⟨phaseEdge_of_quad t k, fun line => ⟨fun select mode edges => ?_, fun mode => ?_, fun mode => ?_⟩⟩
    · have runs : u = _ := phaseEdge_of_select t k l select line mode edges
      rw [runs]
      exact stepIfCounting_ite k .up t _
    · have runs : u = _ := phaseEdge_of_split t k l line mode
      rw [runs]
      exact stepIfCounting_ite k .up t _
    · have runs : u = gateEdge k (t.level l) t := phaseEdge_of_span t k l line mode
      refine ⟨fun active rise closed => ?_, fun active fall window => ?_, fun neither => ?_⟩
      · rw [runs, rise, gateEdge_of_rise t k active closed]
      · rw [runs, fall, gateEdge_of_fall t k active window]
      · rw [runs, gateEdge_of_neither t k _ neither]
  · intro e u line
    have runs : u = _ := lineBEdge_of_line t k l line
    rw [runs]
    exact stepIfCounting_ite k .down t _
  · exact inhibitEdge_of_line t k l line

end Sys2Proof.Machine

/-!
PROOFS. The output lines (R118 to R122) and the sample of the pins (R41, R114, R115, R118; log 7, log 26, log 33).
-/

namespace Sys2Proof.Machine

/-! ### Output lines -/

theorem State.driven_iff (s : State) (l : OutputId) :
    s.driven l = true ↔
      ∃ i, (s.output l).owner = some i ∧ (s.output l).level = true ∧ (s.session i).outputsEnabled = true := by
  unfold State.driven
  cases owner : (s.output l).owner with
  | none => simp
  | some i => simp

theorem exec_pulseExpiry_of_running (l : OutputId) (s : State) (running : (s.output l).timer ≠ some 0) :
    exec (.pulseExpiry l) s = .next s := congrArg Host.Outcome.next (if_neg running)

theorem exec_pulseExpiry_of_expired (l : OutputId) (s : State) (expired : (s.output l).timer = some 0) :
    exec (.pulseExpiry l) s = .next (s.setOutput l { s.output l with level := false, timer := none }) :=
  congrArg Host.Outcome.next (if_pos expired)

/-- Settles O32: the action by its kind, and the end of a pulse. -/
theorem outputLinesSetClearPulse : Obligations.OutputLinesSetClearPulse := by
  unfold Obligations.OutputLinesSetClearPulse
  refine ⟨fun i l kind s => ?_, exec_pulseExpiry_of_running, fun l s expired => ?_, fun l s => s.driven_iff l⟩
  · intro u
    have own : u.output l = (s.output l).apply kind ((s.session i).pulseWidth.getD 0) := State.output_setOutput_same s l _
    refine ⟨rfl, fun m other => State.output_setOutput_ne s l m _ other, ?_⟩
    rw [own]
    cases kind with
    | set => exact ⟨rfl, rfl, rfl⟩
    | clear => exact ⟨rfl, rfl, rfl⟩
    | pulse =>
      refine ⟨rfl, rfl, fun width set => ?_⟩
      rw [set]
      rfl
  · exact ⟨_, exec_pulseExpiry_of_expired l s expired, rfl, fun m => State.output_setOutput s l m _⟩

/-! ### One period of the Timebase (R39, R41, R118, R158) -/

theorem State.drivenLevels_bit (s : State) (l : OutputId) : s.drivenLevels.getLsbD l.val = s.driven l :=
  getLsbD_gathered_all s.driven l

theorem periodPasses_output (s : State) (l : OutputId) :
    (periodPasses s).output l = { s.output l with timer := (s.output l).timer.map (· - 1) } := by
  simp [periodPasses, State.output, timerPassed]

theorem periodPasses_frame (s : State) :
    periodPasses s =
      { s with pins := (periodPasses s).pins, refPhase := (s.refPhase + 1) % 10000, outputs := (periodPasses s).outputs
               waits := (periodPasses s).waits, reportRings := (periodPasses s).reportRings } := rfl

/-! ### The samples of the filters (R114) -/

theorem InputLine.sampled_eq (l : InputLine) (sample : Bool) :
    l.sampled sample =
      if sample = l.accepted then { l with runCount := 0 }
      else if l.runCount + 1 < l.width then { l with runCount := l.runCount + 1 }
      else l := by
  unfold InputLine.sampled InputLine.nearlyComplete
  by_cases same : sample = l.accepted
  · rw [if_pos same, if_pos same]
  · by_cases more : l.runCount + 1 < l.width
    · rw [if_neg same, if_neg same, if_pos more, if_neg (by simpa using more)]
    · rw [if_neg same, if_neg same, if_neg more, if_pos (by simpa using more)]

theorem completedLines_bit (levels : BitVec 16) (s : State) (l : LineId) :
    (completedLines levels s).getLsbD l.val =
      decide (levels.getLsbD l.val ≠ (s.line l).accepted ∧ (s.line l).width ≤ (s.line l).runCount + 1) := by
  refine (getLsbD_gathered_all (fun l => (s.line l).completes (levels.getLsbD l.val)) l).trans ?_
  rw [InputLine.completes, InputLine.nearlyComplete, ← Bool.decide_and]

/-- The state after the period and the samples. -/
theorem sampleLines_periodSampled (levels : BitVec 16) (s : State) :
    PeriodSampled levels s (sampleLines levels allLines (periodPasses s)) := by
  have passed := periodPasses_frame s
  have sampled := sampleLines_frame levels allLines (periodPasses s)
  refine ⟨?_, fun l => ?_, fun l => ?_, fun l => ?_, fun x => ?_, fun q => ?_⟩
  · rw [sampled, passed]
  · rw [sampleLines_line levels allLines _ l (List.nodup_finRange 16), if_pos (show l ∈ allLines from List.mem_finRange l),
      InputLine.sampled_eq]
    rfl
  · rw [sampled]
    exact s.drivenLevels_bit l
  · rw [State.output_congr (periodPasses s) _ (by rw [sampled]), periodPasses_output]
  · rw [State.wait_congr (periodPasses s) _ (by rw [sampled]), periodPasses_wait]
    rfl
  · rw [State.reportRing_congr (periodPasses s) _ (by rw [sampled]), periodPasses_reportRing]
    rfl

theorem exec_rawPinSample (levels : BitVec 16) (order : List Delivery) (s : State) (high : s.phase ≠ .hardwareReset) :
    exec (.rawPinSample levels order) s = .next (samplePins levels order (periodPasses s)) :=
  congrArg Host.Outcome.next (if_neg high)

theorem samplePins_of_none (levels : BitVec 16) (order : List Delivery) (s : State) (none : completedLines levels s = 0) :
    samplePins levels order s = sampleLines levels allLines s := if_pos none

theorem samplePins_of_done (levels : BitVec 16) (order : List Delivery) (s : State) (some : completedLines levels s ≠ 0) :
    samplePins levels order s =
      qualifiedEdges (completedLines levels s) order (settle (sampleLines levels allLines s)) := if_neg some

theorem qualifiedEdges_line (lines : BitVec 16) (order : List Delivery) (s : State) (l : LineId) :
    (qualifiedEdges lines order s).line l =
      if lines.getLsbD l.val = true then { s.line l with accepted := !(s.line l).accepted, runCount := 0 } else s.line l :=
  ((eventFrame_handEdges lines order _).line l).trans (acceptLines_level lines s l)

/-- A filter that completes its run keeps its fields until its edge. -/
theorem PeriodSampled.line_of_done {levels : BitVec 16} {s v : State} (sampled : PeriodSampled levels s v) (l : LineId)
    (differs : levels.getLsbD l.val ≠ (s.line l).accepted) (complete : (s.line l).width ≤ (s.line l).runCount + 1) :
    v.line l = s.line l := by
  rw [sampled.2.1 l, if_neg differs, if_neg (Nat.not_lt.mpr complete)]

/-- Settles O40: the period with no edge, and the edges of the filters that complete. -/
theorem rawPinSampleRunsTheFilters : Obligations.RawPinSampleRunsTheFilters := by
  unfold Obligations.RawPinSampleRunsTheFilters
  refine ⟨fun s levels order low => congrArg Host.Outcome.next (if_pos low), fun s levels order high none => ?_,
    fun s levels order done high nonzero isDone => ?_⟩
  · have noLine : completedLines levels (periodPasses s) = 0 := lines_ext _ 0 fun l => by
      have zero : (0 : BitVec 16).getLsbD l.val = false := BitVec.getLsbD_zero
      rw [completedLines_bit, zero, decide_eq_false_iff_not]
      rintro ⟨differs, complete⟩
      exact (none l).elim differs (Nat.not_lt.mpr complete)
    refine ⟨_, exec_rawPinSample levels order s high, ?_⟩
    rw [samplePins_of_none levels order _ noLine]
    exact sampleLines_periodSampled levels s
  · have completed : completedLines levels (periodPasses s) = done := lines_ext _ _ fun l => by
      rw [completedLines_bit, isDone]
      rfl
    have sampled := sampleLines_periodSampled levels s
    have runs : exec (.rawPinSample levels order) s = _ := (exec_rawPinSample levels order s high).trans
      (congrArg Host.Outcome.next (samplePins_of_done levels order _ (completed ▸ nonzero)))
    rw [completed] at runs
    generalize sampleLines levels allLines (periodPasses s) = v at sampled runs
    have kept (l : LineId) (accepts : done.getLsbD l.val = true) : v.line l = s.line l ∧
        levels.getLsbD l.val ≠ (s.line l).accepted ∧ (s.line l).width ≤ (s.line l).runCount + 1 := by
      rw [isDone, decide_eq_true_iff] at accepts
      exact ⟨sampled.line_of_done l accepts.1 accepts.2, accepts⟩
    have ready : readyLines done v = done := lines_ext _ _ fun l => by
      rw [Bool.eq_iff_iff, readyLines_bit_iff]
      refine and_iff_left_of_imp fun accepts => ?_
      obtain ⟨same, -, complete⟩ := kept l accepts
      rw [same]
      exact complete
    have phase : v.phase ≠ .hardwareReset := by
      rw [sampled.1]
      exact high
    refine ⟨_, runs, v, sampled, ?_, fun l => ?_⟩
    · rw [exec_qualifiedEdge done order v phase (ready.symm ▸ nonzero), ready]
    · rw [qualifiedEdges_line, (eventFrame_settle v).line]
      refine if_ctx_congr Iff.rfl (fun accepts => ?_) fun _ => rfl
      obtain ⟨same, differs, -⟩ := kept l accepts
      rw [same, Bool.eq_not_of_ne differs]

end Sys2Proof.Machine

/-!
PROOFS. DROP_JOB_RING and RESTART_JOB_RING (R141, R142), and MAKE_REPORT_RING (R155).
-/

namespace Sys2Proof.Machine

/-! ### DROP_JOB_RING (R141) -/

theorem exec_dropJobRing (w : JobRecord) (s : State) (reaches : ControlReaches s) :
    exec (.dropJobRing w) s = .next (dropJobRingBody w (recordArrives 0 s)) :=
  congrArg Host.Outcome.next (withTaken_controlJob dropJobRingBody w s reaches)

theorem dropJobRingBody_of_badId (w : JobRecord) (t : State) (id : workJobRingOf (w.byte 8) = none) :
    dropJobRingBody w t = replyControl 0 w .badParam 0 t := by
  simp only [dropJobRingBody, id]

section DroppedRing

variable (w : JobRecord) (t : State) (j : JobRingId) (named : workJobRingOf (w.byte 8) = some j)

include named

theorem dropJobRingBody_of_absent (absent : (t.jobRing j).state = .absent) :
    dropJobRingBody w t = replyControl 0 w .noRing 0 t := by
  simp only [dropJobRingBody, named, if_pos absent]

variable (present : (t.jobRing j).state ≠ .absent)

include present

theorem dropJobRingBody_of_owner (owner : t.ownedCount j ≠ 0) :
    dropJobRingBody w t = replyControl 0 w .inUse (t.ownedCount j) t := by
  simp only [dropJobRingBody, named, if_neg present, if_pos owner]

variable (unowned : t.ownedCount j = 0)

include unowned

theorem dropJobRingBody_of_fetch (fetch : (t.jobRing j).fetchInFlight = true) :
    dropJobRingBody w t = replyControl 0 w .inUse 0 t := by
  simp only [dropJobRingBody, named, if_neg present, if_neg (not_not_intro unowned), fetch, if_true]

theorem dropJobRingBody_of_passes (noFetch : (t.jobRing j).fetchInFlight = false) :
    dropJobRingBody w t = replyControl 0 w .success (t.jobRing j).pendingCount (t.setJobRing j {}) := by
  simp only [dropJobRingBody, named, if_neg present, if_neg (not_not_intro unowned), noFetch, Bool.false_eq_true, if_false,
    forgetJobRing]

end DroppedRing

/-! ### RESTART_JOB_RING (R142) -/

theorem State.setJobRing_self (s : State) (j : JobRingId) : s.setJobRing j (s.jobRing j) = s := by
  simp [State.setJobRing, State.jobRing]

/-- The answer of a control job that changes an entry, JR0's among them, but neither its take index nor its bound ring. -/
theorem replyControl_setJobRing_state (w : JobRecord) (status : Status) (value : Nat) (j : JobRingId) (state : JobRingState)
    (t : State) (accepted : status.cls ≠ .refusal) :
    let e := { t.jobRing j with state }
    let u := replyControl 0 w status value (t.setJobRing j e)
    OnlyRings t u ∧ Handed [((t.jobRing 0).bound, ownRecord 0 w.tag status 255 (toWord value) {} t)] t u ∧
      ∀ i, u.jobRing i = if i = j then e else t.jobRing i := by
  intro e u
  have control : ((t.setJobRing j e).jobRing 0).bound = (t.jobRing 0).bound ∧
      ((t.setJobRing j e).jobRing 0).take = (t.jobRing 0).take := by
    rw [State.jobRing_setJobRing]
    split
    next same => rw [same]; exact ⟨rfl, rfl⟩
    next => exact ⟨rfl, rfl⟩
  obtain ⟨handed, halted⟩ := answerNow_answered 0 w status 255 (toWord value) {} (t.setJobRing j e)
  refine ⟨?_, ?_, fun i => ?_⟩
  · have rings : OnlyRings (t.setJobRing j e) u := answer_onlyRings _ _ _ _ _
    unfold OnlyRings
    rw [rings]
    rfl
  · simp only [ownRecord, control.1, control.2] at handed
    exact handed
  · have kept : u.jobRing i = (t.setJobRing j e).jobRing i :=
      (halted i).trans (if_neg fun ⟨_, refusal, _⟩ => accepted refusal)
    rw [kept, State.jobRing_setJobRing]

theorem exec_restartJobRing (w : JobRecord) (s : State) (reaches : ControlReaches s) :
    exec (.restartJobRing w) s = .next (restartJobRingBody w (recordArrives 0 s)) :=
  congrArg Host.Outcome.next (withTaken_controlJob restartJobRingBody w s reaches)

theorem restartJobRingBody_of_badId (w : JobRecord) (t : State) (id : jobRingOf (w.byte 8) = none) :
    restartJobRingBody w t = replyControl 0 w .badParam 0 t := by
  simp only [restartJobRingBody, id]

section RestartedRing

variable (w : JobRecord) (t : State) (j : JobRingId) (named : jobRingOf (w.byte 8) = some j)

include named

theorem restartJobRingBody_of_absent (absent : (t.jobRing j).state = .absent) :
    restartJobRingBody w t = replyControl 0 w .noRing 0 t := by
  simp only [restartJobRingBody, named, absent]

theorem restartJobRingBody_of_broken (broken : (t.jobRing j).state = .broken) :
    restartJobRingBody w t = replyControl 0 w .wrongState 0 t := by
  simp only [restartJobRingBody, named, broken]

/-- A RUNNING ring stays as it is. -/
theorem restartJobRingBody_of_live (live : (t.jobRing j).state = .running ∨ (t.jobRing j).state = .halted) :
    restartJobRingBody w t =
      replyControl 0 w .success (t.jobRing j).pendingCount (t.setJobRing j { t.jobRing j with state := .running }) := by
  rcases live with running | halted
  · have same : ({ t.jobRing j with state := .running } : JobRing) = t.jobRing j := by rw [← running]
    simp only [restartJobRingBody, named, running]
    rw [same, t.setJobRing_self]
  · simp only [restartJobRingBody, named, halted]
    rfl

end RestartedRing

/-- Settles O34: each job by the state of the named ring. -/
theorem jobRingsAreDroppedAndRestarted : Obligations.JobRingsAreDroppedAndRestarted := by
  unfold Obligations.JobRingsAreDroppedAndRestarted
  refine ⟨fun w s reaches => ?_, fun w s reaches => ?_⟩
  · intro t o id
    have runs : o = .next (dropJobRingBody w t) := exec_dropJobRing w s reaches
    rw [runs]
    refine ⟨fun badId => ?_, fun j sameId work => ?_⟩
    · rw [dropJobRingBody_of_badId w t (workJobRingOf_eq_none _ badId)]
      exact replyControl_refused 0 w .badParam 0 t rfl
    have named : workJobRingOf (w.byte 8) = some j := (workJobRingOf_eq_some_iff _ j).mpr ⟨sameId, work⟩
    intro owned
    refine ⟨fun absent => ?_, fun present owner => ?_, fun present unowned fetch => ?_, fun present unowned noFetch => ?_⟩
    · rw [dropJobRingBody_of_absent w t j named absent]
      exact replyControl_refused 0 w .noRing 0 t rfl
    · rw [dropJobRingBody_of_owner w t j named present owner]
      exact replyControl_refused 0 w .inUse _ t rfl
    · rw [dropJobRingBody_of_fetch w t j named present unowned fetch]
      exact replyControl_refused 0 w .inUse 0 t rfl
    · exact ⟨_, congrArg Host.Outcome.next (dropJobRingBody_of_passes w t j named present unowned noFetch),
        replyControl_setJobRing w .success (t.jobRing j).pendingCount j {} t work (by decide)⟩
  · intro t o id
    have runs : o = .next (restartJobRingBody w t) := exec_restartJobRing w s reaches
    rw [runs]
    refine ⟨fun badId => ?_, fun j sameId => ?_⟩
    · rw [restartJobRingBody_of_badId w t (jobRingOf_eq_none _ badId)]
      exact replyControl_refused 0 w .badParam 0 t rfl
    have named : jobRingOf (w.byte 8) = some j := (jobRingOf_eq_some_iff _ j).mpr sameId
    refine ⟨fun absent => ?_, fun broken => ?_, fun live => ?_⟩
    · rw [restartJobRingBody_of_absent w t j named absent]
      exact replyControl_refused 0 w .noRing 0 t rfl
    · rw [restartJobRingBody_of_broken w t j named broken]
      exact replyControl_refused 0 w .wrongState 0 t rfl
    · exact ⟨_, congrArg Host.Outcome.next (restartJobRingBody_of_live w t j named live),
        replyControl_setJobRing_state w .success (t.jobRing j).pendingCount j .running t (by decide)⟩

/-! ### MAKE_REPORT_RING (R155) -/

theorem workReportRingOf_eq_none (b : Byte) (bad : b.toNat = 0 ∨ 7 < b.toNat) : workReportRingOf b = none :=
  workJobRingOf_eq_none b bad

theorem exec_makeReportRing (w : JobRecord) (s : State) (reaches : ControlReaches s) :
    exec (.makeReportRing w) s = .next (makeReportRingBody w (recordArrives 0 s)) :=
  congrArg Host.Outcome.next (withTaken_controlJob makeReportRingBody w s reaches)

theorem makeReportRingBody_of_badId (w : JobRecord) (t : State) (id : workReportRingOf (w.byte 8) = none) :
    makeReportRingBody w t = replyControl 0 w .badParam 0 t := by
  simp only [makeReportRingBody, id]

section MadeRing

variable (w : JobRecord) (t : State) (q : ReportRingId) (named : workReportRingOf (w.byte 8) = some q)

include named

theorem makeReportRingBody_of_present (present : (t.reportRing q).state ≠ .absent) :
    makeReportRingBody w t = replyControl 0 w .ringExists 0 t := by
  simp only [makeReportRingBody, named, if_pos present]

variable (absent : (t.reportRing q).state = .absent)

include absent

theorem makeReportRingBody_of_badParameters
    (bad : ringGeometryOk 16 (w.half 12).toNat (w.quad 16).toNat = false ∨ settingsAsked w = none) :
    makeReportRingBody w t = replyControl 0 w .badParam 0 t := by
  simp only [makeReportRingBody, named, if_neg (not_not_intro absent), notifyOf_eq_settingsAsked]
  rcases bad with geometry | settings
  · rw [if_pos geometry]
  · rw [settings]
    split <;> rfl

theorem makeReportRingBody_of_passes (settings : NotifyMode)
    (geometry : ringGeometryOk 16 (w.half 12).toNat (w.quad 16).toNat = true) (asked : settingsAsked w = some settings) :
    makeReportRingBody w t =
      replyControl 0 w .success q.val
        (t.setReportRing q (madeReportRing (w.quad 16).toNat (w.half 12).toNat settings)) := by
  simp only [makeReportRingBody, named, if_neg (not_not_intro absent), notifyOf_eq_settingsAsked, geometry, asked,
    Bool.true_eq_false, if_false]

end MadeRing

/-- A record for another ring leaves the ring as it is. -/
theorem handedRing_of_other (id q : ReportRingId) (rec : ReportRecord) (x : ReportRing) (other : q ≠ id) :
    handedRing [(q, rec)] id x = x := by
  unfold handedRing
  split
  · simp [other]
  · rfl

/-- Settles O35: the refusal of each check in their order, and the ring that passes them. -/
theorem makeReportRingOpensAnEmptyRing : Obligations.MakeReportRingOpensAnEmptyRing := by
  unfold Obligations.MakeReportRingOpensAnEmptyRing
  intro w s reaches t o id size base good
  have runs : o = .next (makeReportRingBody w t) := exec_makeReportRing w s reaches
  have geometry : ringGeometryOk 16 size base = true ↔ good := ringGeometryOk_iff 16 size base
  rw [runs]
  refine ⟨fun badId => ?_, fun q sameId work => ?_⟩
  · rw [makeReportRingBody_of_badId w t (workReportRingOf_eq_none _ badId)]
    exact replyControl_refused 0 w .badParam 0 t rfl
  have named : workReportRingOf (w.byte 8) = some q := (workReportRingOf_eq_some_iff _ q).mpr ⟨sameId, work⟩
  refine ⟨fun present => ?_, fun absent bad => ?_, fun settings absent passes asked other => ?_⟩
  · rw [makeReportRingBody_of_present w t q named present]
    exact replyControl_refused 0 w .ringExists 0 t rfl
  · rw [makeReportRingBody_of_badParameters w t q named absent
      (bad.imp_left fun not => Bool.eq_false_iff.mpr (mt geometry.mp not))]
    exact replyControl_refused 0 w .badParam 0 t rfl
  · obtain ⟨only, halted, rings⟩ := replyControl_setReportRing w .success q.val q (madeReportRing base size settings) t
    refine ⟨_, congrArg Host.Outcome.next (makeReportRingBody_of_passes w t q named absent settings (geometry.mpr passes) asked),
      only, halted, fun i => ?_⟩
    rw [rings i]
    by_cases own : i = q
    · rw [if_pos own, if_pos own, own, handedRing_of_other q _ _ _ other]
      rfl
    · rw [if_neg own, if_neg own]

end Sys2Proof.Machine

/-!
PROOFS. LINE_SETUP (R24, R86, R113, R116).
-/

namespace Sys2Proof.Machine

/-! ### Edges at sessions that are not ACTIVE (R24, R86) -/

/-- What an edge in a role does to an entry that does not count, where the qualified levels are as given. -/
def Session.quiet (levels : LineId → Bool) (role : EdgeRole) (e : Session) : Session :=
  match role with
  | .phase =>
    if e.mode = some .quad then
      { e with
        pairRef :=
          match e.lineA, e.lineB with
          | some a, some b => some (levels a, levels b)
          | _, _ => none }
    else e
  | .inhibit =>
    match e.inhibitLine with
    | some l =>
      { e with hold := { e.hold with inhibit := levels l }
               partialFlag := e.partialFlag || (levels l && !e.hold.inhibit && e.windowOpen) }
    | none => e
  | .lineB | .mark => e

theorem Session.quiet_state (levels : LineId → Bool) (role : EdgeRole) (e : Session) : (e.quiet levels role).state = e.state := by
  unfold Session.quiet
  repeat' split
  all_goals rfl

theorem stepIfCounting_of_inactive (i : SessionId) (dir : Direction) (s : State) (inactive : (s.session i).state ≠ .active) :
    stepIfCounting i dir s = s := (stepIfCounting_eq i dir s).2 fun counts => inactive counts.1

theorem phaseEdge_of_inactive (t : State) (k : SessionId) (inactive : (t.session k).state ≠ .active) :
    phaseEdge k t = t.setSession k ((t.session k).quiet t.level .phase) := by
  have same : t.setSession k (t.session k) = t := t.setSession_self k
  unfold phaseEdge
  dsimp only
  split
  next quad =>
    have idle : (t.session k).counts = false := by simp [Session.counts, inactive]
    simp only [pairSample, idle, Bool.false_eq_true, if_false, State.updSession, Session.quiet, quad, if_true]
    rfl
  next tally _ => simp only [stepIfCounting_of_inactive k .up t inactive, ite_self, Session.quiet, tally, reduceCtorEq, same,
    Option.some.injEq, if_false]
  next rate _ => simp only [stepIfCounting_of_inactive k .up t inactive, ite_self, Session.quiet, rate, reduceCtorEq, same,
    Option.some.injEq, if_false]
  next split' _ => simp only [stepIfCounting_of_inactive k .up t inactive, ite_self, Session.quiet, split', reduceCtorEq, same,
    Option.some.injEq, if_false]
  next span _ => simp only [gateEdge_of_neither t k _ (.inl inactive), Session.quiet, span, reduceCtorEq, same,
    Option.some.injEq, if_false]
  next notQuad _ _ _ _ =>
    have other : (t.session k).mode ≠ some .quad := fun quad => notQuad quad
    rw [Session.quiet, if_neg other, same]

/-- A delivery to a session that is not ACTIVE. -/
theorem deliver_of_inactive (t : State) (k : SessionId) (role : EdgeRole) (edge : role ≠ .mark)
    (inactive : (t.session k).state ≠ .active) :
    deliver (k, role) t = t.setSession k ((t.session k).quiet t.level role) := by
  have same : t.setSession k (t.session k) = t := t.setSession_self k
  cases role with
  | phase => exact phaseEdge_of_inactive t k inactive
  | lineB =>
    change lineBEdge k t = t.setSession k (t.session k)
    rw [same]
    unfold lineBEdge
    split
    · rw [stepIfCounting_of_inactive k .down t inactive, ite_self]
    · rfl
  | inhibit =>
    obtain absent | ⟨l, line⟩ := Option.eq_none_or_eq_some (t.session k).inhibitLine
    · have runs : inhibitEdge k t = t := by simp only [inhibitEdge, absent]
      simp only [deliver, Session.quiet, absent, runs, same]
    · simp only [deliver, inhibitEdge_of_line t k l line, Session.quiet, line]
  | mark => exact absurd rfl edge

/-- Deliveries to sessions that are not ACTIVE change their entries alone, each by its own roles. -/
theorem deliverList_of_inactive (l : List Delivery) (s : State)
    (quiet : ∀ d ∈ l, d.2 ≠ .mark ∧ (s.session d.1).state ≠ .active) :
    deliverList l s = { s with sessions := (deliverList l s).sessions } ∧
      ∀ k, (deliverList l s).session k =
        ((l.filter (fun d => decide (d.1 = k))).map Prod.snd).foldl (fun e role => e.quiet s.level role) (s.session k) := by
  induction l generalizing s with
  | nil => exact ⟨rfl, fun _ => rfl⟩
  | cons d rest ih =>
    obtain ⟨edge, inactive⟩ := quiet d (by simp)
    have runs := deliver_of_inactive s d.1 d.2 edge inactive
    have entry (k : SessionId) := State.session_setSession s d.1 k ((s.session d.1).quiet s.level d.2)
    rw [← runs] at entry
    have later : ∀ x ∈ rest, x.2 ≠ .mark ∧ ((deliver d s).session x.1).state ≠ .active := by
      intro x listed
      refine ⟨(quiet x (by simp [listed])).1, ?_⟩
      rw [entry]
      split
      · rw [Session.quiet_state]
        exact inactive
      · exact (quiet x (by simp [listed])).2
    have levels : (deliver d s).level = s.level := by rw [runs]; rfl
    obtain ⟨frame, sessions⟩ := ih (deliver d s) later
    refine ⟨?_, fun k => ?_⟩
    · rw [deliverList, frame, runs]
      rfl
    · rw [deliverList, sessions, levels, entry]
      by_cases own : d.1 = k
      · subst own
        simp
      · have other : ¬k = d.1 := fun h => own h.symm
        simp [own, other]

/-- The roles in which a session hears the lines. -/
def rolesHeard (changed : BitVec 16) (e : Session) : List EdgeRole :=
  [EdgeRole.phase, .lineB, .inhibit].filter (e.hears changed)

/-- Of a list without repetition only one member's part is left. -/
theorem flatMap_of_one {α β : Type} [DecidableEq α] (l : List α) (k : α) (distinct : l.Nodup) (named : k ∈ l)
    (f : α → List β) (others : ∀ i, i ≠ k → f i = []) : l.flatMap f = f k := by
  obtain ⟨before, after, parts⟩ := List.append_of_mem named
  have notOwn := (List.nodup_cons.mp (List.nodup_middle.mp (parts ▸ distinct))).1
  have none (part : List α) (missing : k ∉ part) : part.flatMap f = [] :=
    List.flatMap_eq_nil_iff.mpr fun i listed => others i (ne_of_mem_of_not_mem listed missing)
  rw [parts, List.flatMap_append, List.flatMap_cons, none before fun h => notOwn (by simp [h]),
    none after fun h => notOwn (by simp [h])]
  simp

theorem heardBy_filter (changed : BitVec 16) (s : State) (k : SessionId) :
    ((heardBy changed s).filter (fun d => decide (d.1 = k))).map Prod.snd = rolesHeard changed (s.session k) := by
  have part (i : SessionId) :
      (((([EdgeRole.phase, .lineB, .inhibit].filter ((s.session i).hears changed)).map fun role => (i, role)).filter
        (fun d : Delivery => decide (d.1 = k))).map Prod.snd) =
        if i = k then rolesHeard changed (s.session i) else [] := by
    rw [List.filter_map, List.map_map]
    by_cases own : i = k
    · simp [own, rolesHeard, Function.comp_def]
    · simp [own, Function.comp_def]
  rw [heardBy, List.filter_flatMap, List.map_flatMap]
  simp only [part]
  rw [flatMap_of_one allSessions k (List.nodup_finRange 32) (List.mem_finRange k) _ fun i other => if_neg other, if_pos rfl]

/-! ### The edge of one line at an entry -/

theorem lineSet_bit (l m : LineId) : (lineSet l).getLsbD m.val = decide (m = l) := by
  revert l m
  decide

/-- The entry names the line in some role (R116). -/
def Session.names (e : Session) (l : LineId) : Prop := e.lineA = some l ∨ e.lineB = some l ∨ e.inhibitLine = some l

theorem hearsIn_lineSet (l : LineId) (line : Option LineId) :
    (∃ x, line = some x ∧ (lineSet l).getLsbD x.val = true) ↔ line = some l := by
  simp only [lineSet_bit, decide_eq_true_iff]
  constructor
  · rintro ⟨x, rfl, rfl⟩
    rfl
  · exact fun h => ⟨l, h, rfl⟩

theorem rolesHeard_of_unnamed (l : LineId) (e : Session) (unnamed : ¬(e.state ≠ .free ∧ e.names l)) :
    rolesHeard (lineSet l) e = [] := by
  refine List.filter_eq_nil_iff.mpr fun role _ => ?_
  rw [Session.hears_iff]
  unfold HearsIn
  simp only [hearsIn_lineSet]
  unfold Session.names at unnamed
  cases role <;> simp only <;> tauto

/-- The pair reference takes the new levels (R24). -/
theorem quiet_phase_eq (l : LineId) (levels : LineId → Bool) (e : Session) :
    (if e.lineA = some l ∨ (e.mode = some .quad ∧ e.lineB = some l) then e.quiet levels .phase else e) =
      { e with
        pairRef :=
          if e.mode = some .quad ∧ (e.lineA = some l ∨ e.lineB = some l) then
            match e.lineA, e.lineB with
            | some a, some b => some (levels a, levels b)
            | _, _ => none
          else e.pairRef } := by
  by_cases quad : e.mode = some .quad
  · by_cases named : e.lineA = some l ∨ e.lineB = some l
    · rw [if_pos (named.imp_right fun b => ⟨quad, b⟩), if_pos ⟨quad, named⟩]
      simp only [Session.quiet, if_pos quad]
    · rw [if_neg fun h => named (h.imp_right And.right), if_neg fun h => named h.2]
  · have kept : e.quiet levels .phase = e := by simp only [Session.quiet, if_neg quad]
    rw [kept, ite_self, if_neg fun h => quad h.1]

/-- INHIBIT takes the new level (R86). -/
theorem quiet_inhibit_eq (l : LineId) (levels : LineId → Bool) (e : Session) :
    (if e.inhibitLine = some l then e.quiet levels .inhibit else e) =
      { e with
        hold := if e.inhibitLine = some l then { e.hold with inhibit := levels l } else e.hold
        partialFlag := e.partialFlag ||
          (decide (e.inhibitLine = some l) && levels l && !e.hold.inhibit && e.windowOpen) } := by
  by_cases named : e.inhibitLine = some l
  · simp only [Session.quiet, named, if_true, decide_true, Bool.true_and]
  · simp only [named, if_false, decide_false, Bool.false_and, Bool.or_false]

/-- The entry once it has heard the edge of the line in all its roles. -/
theorem quiet_rolesHeard (l : LineId) (levels : LineId → Bool) (e : Session) (live : e.state ≠ .free) :
    let pair :=
      if e.mode = some .quad ∧ (e.lineA = some l ∨ e.lineB = some l) then
        match e.lineA, e.lineB with
        | some a, some b => some (levels a, levels b)
        | _, _ => none
      else e.pairRef
    (rolesHeard (lineSet l) e).foldl (fun x role => x.quiet levels role) e =
      { e with
        hold := if e.inhibitLine = some l then { e.hold with inhibit := levels l } else e.hold
        partialFlag := e.partialFlag || (decide (e.inhibitLine = some l) && levels l && !e.hold.inhibit && e.windowOpen)
        pairRef := pair } := by
  intro pair
  have paired : (if e.lineA = some l ∨ (e.mode = some .quad ∧ e.lineB = some l) then e.quiet levels .phase else e) =
      { e with pairRef := pair } := quiet_phase_eq l levels e
  have phase : e.hears (lineSet l) .phase = true ↔ e.lineA = some l ∨ (e.mode = some .quad ∧ e.lineB = some l) := by
    rw [Session.hears_iff]
    simp only [HearsIn, hearsIn_lineSet, and_iff_right live]
  have inhibit : e.hears (lineSet l) .inhibit = true ↔ e.inhibitLine = some l := by
    rw [Session.hears_iff]
    simp only [HearsIn, hearsIn_lineSet, and_iff_right live]
  have lineB (x : Session) : (if e.hears (lineSet l) .lineB = true then x.quiet levels .lineB else x) = x := ite_self x
  rw [rolesHeard, List.foldl_filter]
  simp only [List.foldl_cons, List.foldl_nil, phase, lineB, inhibit, paired]
  exact quiet_inhibit_eq l levels { e with pairRef := pair }

/-! ### LINE_SETUP (R116) -/

/-- The edge of a line whose polarity changes, where no ACTIVE session names it. -/
theorem setUpLine_of_unused (l : LineId) (inverted : Bool) (width : Nat) (t : State)
    (unused : ∀ k : SessionId, ¬((t.session k).state = .active ∧ (t.session k).names l)) :
    let setup : InputLine := { t.line l with inverted, width }
    let u := setUpLine l inverted width t
    u = { t with sessions := u.sessions, lines := (t.setLine l setup).lines } ∧
      ∀ k, u.session k =
        if (t.line l).inverted = inverted then t.session k
        else (rolesHeard (lineSet l) (t.session k)).foldl (fun x role => x.quiet (t.setLine l setup).level role) (t.session k) := by
  intro setup u
  by_cases same : (t.line l).inverted = inverted
  · have runs : u = t.setLine l setup := if_pos same
    exact ⟨by rw [runs]; rfl, fun k => by rw [if_pos same, runs]; rfl⟩
  · have runs : u = deliverList (heardBy (lineSet l) (t.setLine l setup)) (t.setLine l setup) := by
      have every : planned Delivery.isEdge [] (heardBy (lineSet l) (t.setLine l setup)) =
          heardBy (lineSet l) (t.setLine l setup) := by simp [planned]
      exact (if_neg same).trans (by rw [handEdges, every])
    obtain ⟨frame, sessions⟩ := deliverList_of_inactive (heardBy (lineSet l) (t.setLine l setup)) (t.setLine l setup)
      fun d heard => by
        obtain ⟨edge, hears⟩ := (mem_heardBy _ _ d).mp heard
        refine ⟨edge, fun active => unused d.1 ⟨active, ?_⟩⟩
        by_contra unnamed
        have none := rolesHeard_of_unnamed l (t.session d.1) fun h => unnamed h.2
        have role : d.2 ∈ rolesHeard (lineSet l) (t.session d.1) :=
          List.mem_filter.mpr ⟨by revert edge; cases d.2 <;> simp, hears⟩
        rw [none] at role
        cases role
    rw [← runs] at frame sessions
    refine ⟨frame, fun k => ?_⟩
    rw [sessions, if_neg same, heardBy_filter]
    rfl

theorem exec_lineSetup (w : JobRecord) (s : State) (reaches : ControlReaches s) :
    exec (.lineSetup w) s = .next (lineSetupBody w (recordArrives 0 s)) :=
  congrArg Host.Outcome.next (withTaken_controlJob lineSetupBody w s reaches)

theorem lineOf_eq_some_iff (b : Byte) (l : LineId) : lineOf b = some l ↔ b.toNat = l.val := by
  have inside := l.isLt
  simp only [lineOf, Option.dite_none_right_eq_some, Option.some.injEq, Fin.ext_iff]
  constructor
  · rintro ⟨_, same⟩
    exact same
  · exact fun same => ⟨same ▸ inside, same⟩

theorem lineOf_eq_none (b : Byte) (bad : 15 < b.toNat) : lineOf b = none := dif_neg (by omega)

theorem polarityOf_eq (b : Byte) : polarityOf b = if b.toNat ≤ 1 then some (decide (b.toNat = 1)) else none := settingOf_eq b

theorem lineSetupBody_of_badParameters (w : JobRecord) (t : State)
    (bad : 15 < (w.byte 8).toNat ∨ 1 < (w.byte 9).toNat ∨ (w.byte 10).toNat < 2) :
    lineSetupBody w t = replyControl 0 w .badParam 0 t := by
  unfold lineSetupBody
  split
  next l inverted line polarity =>
    rcases bad with number | code | width
    · rw [lineOf_eq_none _ number] at line
      cases line
    · rw [polarityOf_eq, if_neg (Nat.not_le.mpr code)] at polarity
      cases polarity
    · exact if_pos width
  next => rfl

section Setup

variable (w : JobRecord) (t : State) (l : LineId) (line : (w.byte 8).toNat = l.val) (polarity : (w.byte 9).toNat ≤ 1)
  (width : 2 ≤ (w.byte 10).toNat)

include line polarity width

/-- The parameters pass: the user of the line is looked for. -/
theorem lineSetupBody_of_parameters :
    lineSetupBody w t =
      match allSessions.find? (fun k => (t.session k).usesLine l) with
      | some k => replyControl 0 w .lineBusy k.val t
      | none => replyControl 0 w .success l.val (setUpLine l (decide ((w.byte 9).toNat = 1)) (w.byte 10).toNat t) := by
  unfold lineSetupBody
  rw [(lineOf_eq_some_iff _ l).mpr line, polarityOf_eq, if_pos polarity]
  exact if_neg (Nat.not_lt.mpr width)

end Setup

theorem Session.usesLine_iff (e : Session) (l : LineId) : e.usesLine l = true ↔ e.state = .active ∧ e.names l := by
  simp only [Session.usesLine, Session.names, Bool.and_eq_true, Bool.or_eq_true, decide_eq_true_iff, or_assoc]

/-- The lowest session of which a test holds. -/
theorem find_lowest_session (p : SessionId → Bool) (k : SessionId) (holds : p k = true) (below : ∀ j < k, p j = false) :
    allSessions.find? p = some k := by
  unfold allSessions
  rw [List.find?_eq_some_iff_getElem]
  refine ⟨holds, k.val, by simp, by simp, fun j lt => ?_⟩
  simp only [List.getElem_finRange, Bool.not_eq_true']
  exact below _ lt

/-- Settles O39: the level of a line, the refusals in their order, and the setup with its edge. -/
theorem lineSetupReplacesTheSetup : Obligations.LineSetupReplacesTheSetup := by
  unfold Obligations.LineSetupReplacesTheSetup
  refine ⟨fun l => ?_, fun s l => rfl, fun w s reaches => ?_⟩
  · unfold InputLine.level
    cases l.inverted <;> simp
  intro t o names
  have runs : o = .next (lineSetupBody w t) := exec_lineSetup w s reaches
  rw [runs]
  clear_value t
  refine ⟨fun bad => ?_, fun l line polarity width => ⟨fun k active named lowest => ?_, fun unused => ?_⟩⟩
  · rw [lineSetupBody_of_badParameters w t bad]
    exact replyControl_refused 0 w .badParam 0 t rfl
  · have user : allSessions.find? (fun k => (t.session k).usesLine l) = some k :=
      find_lowest_session _ k ((Session.usesLine_iff _ l).mpr ⟨active, named⟩) fun j lower =>
        Bool.eq_false_iff.mpr (mt (Session.usesLine_iff _ l).mp (lowest j lower))
    rw [lineSetupBody_of_parameters w t l line polarity width, user]
    exact replyControl_refused 0 w .lineBusy k.val t rfl
  · intro inverted setup level edge
    have noUser : allSessions.find? (fun k => (t.session k).usesLine l) = none :=
      List.find?_eq_none.mpr fun k _ => mt (Session.usesLine_iff _ l).mp (unused k)
    obtain ⟨frame, sessions⟩ := setUpLine_of_unused l inverted (w.byte 10).toNat t unused
    have body := lineSetupBody_of_parameters w t l line polarity width
    rw [noUser] at body
    rw [body]
    have levels : (t.setLine l setup).level = level := by
      funext m
      simp only [State.level, State.line_setLine, level, setup]
      split <;> rfl
    change Completes (.next (replyControl 0 w .success l.val (setUpLine l inverted (w.byte 10).toNat t))) _
    generalize setUpLine l inverted (w.byte 10).toNat t = v at frame sessions ⊢
    dsimp only at frame sessions
    rw [levels] at sessions
    have answered := answerNow_answered 0 w .success 255 (toWord l.val) {} v
    have rings : OnlyRings v (replyControl 0 w .success l.val v) := answer_onlyRings _ _ _ _ _
    have entry (k : SessionId) : (replyControl 0 w .success l.val v).session k = v.session k := by rw [rings]; rfl
    refine ⟨_, rfl, ?_, fun m => ?_, fun k quiet => ?_, fun k changes live named => ?_, ?_⟩
    · rw [rings, frame]
    · rw [rings, frame]
      exact State.line_setLine t l m setup
    · rw [entry, sessions]
      by_cases same : (t.line l).inverted = inverted
      · exact if_pos same
      · rw [if_neg same, rolesHeard_of_unnamed l _ fun h => quiet ⟨same, h⟩]
        rfl
    · intro e
      have own : level l = setup.level := if_pos rfl
      rw [entry, sessions, if_neg changes, quiet_rolesHeard l level _ live, own] <;> rfl
    · rw [frame] at answered
      rw [frame]
      exact answered

end Sys2Proof.Machine

/-!
PROOFS. Eligibility, the arbiter and the take (R128 to R130), and the bus errors of reads and writes with their NOTICE (R132,
R149, R152 to R154).
-/

namespace Sys2Proof.Machine

/-! ### Eligibility (R128) -/

theorem ReportRing.hasPlace_iff (q : ReportRing) :
    q.hasPlace = true ↔ q.state = .opened ∧ q.outstanding + q.reservations < q.size := by
  rw [ReportRing.hasPlace, Bool.and_eq_true, decide_eq_true_iff, decide_eq_true_iff, q.freeSpace_eq]
  exact and_congr_right fun _ => by omega

theorem State.eligible_iff (s : State) (r : JobRingId) :
    s.eligible r = true ↔
      s.run = true ∧ s.fatalCause = .none ∧ (s.jobRing r).state = .running ∧ 0 < (s.jobRing r).pendingCount ∧
        (s.jobRing r).fetchInFlight = false ∧ (s.reportRing (s.jobRing r).bound).state = .opened ∧
        (s.reportRing (s.jobRing r).bound).outstanding + (s.reportRing (s.jobRing r).bound).reservations <
          (s.reportRing (s.jobRing r).bound).size := by
  have sound : (!s.isFatal) = true ↔ s.fatalCause = .none := by simp [State.isFatal]
  simp only [State.eligible, Bool.and_eq_true, decide_eq_true_eq, sound, Bool.not_eq_true', ReportRing.hasPlace_iff, and_assoc]

theorem exec_jobTake_none (s : State) : exec (.jobTake none) s = .next (takerChoice s) := rfl

theorem takerChoice_of_taking (s : State) (t : TakeInProgress) (taking : s.taking = some t) : takerChoice s = s := by
  simp only [takerChoice, taking]

theorem takerChoice_of_choice (s : State) (idle : s.taking = none) (c : Choice) (chosen : s.choose = some c) :
    takerChoice s = beginTake c s := by
  simp only [takerChoice, idle, chosen]

theorem takerChoice_of_no_choice (s : State) (none : s.choose = .none) : takerChoice s = s := by
  unfold takerChoice
  split
  · rfl
  · rw [none]

theorem choose_eq_none (s : State) (none : ∀ r, s.eligible r = false) : s.choose = .none := by
  cases chosen : s.choose with
  | none => rfl
  | some c => exact absurd (choose_eligible s c chosen).1 (Bool.eq_false_iff.mp (none c.ring))

/-- Settles O11: the conditions, and the two cases without a take. -/
theorem takingNeedsAnEligibleRing : Obligations.TakingNeedsAnEligibleRing := by
  unfold Obligations.TakingNeedsAnEligibleRing
  refine ⟨State.eligible_iff, fun s noTake => ?_⟩
  rw [exec_jobTake_none]
  rcases noTake with ⟨t, taking⟩ | none
  · rw [takerChoice_of_taking s t taking]
  · rw [takerChoice_of_no_choice s (choose_eq_none s none)]

/-! ### The rotation (R129) -/

/-- The place of a work ring in the rotation, counted from the ring after the holder. -/
def rotationPlace (turn r : JobRingId) : Nat := (r.val + 6 - turn.val) % 7

theorem rotation_length (turn : JobRingId) : (rotation turn).length = 7 := by simp [rotation]

theorem rotation_getElem (turn : JobRingId) (n : Nat) (inside : n < (rotation turn).length) :
    (rotation turn)[n].val = (turn.val + n) % 7 + 1 := by
  simp [rotation]

/-- A work ring stands at its place. -/
theorem rotation_place (turn r : JobRingId) (work : r ≠ 0) :
    (turn.val + rotationPlace turn r) % 7 + 1 = r.val := by
  have positive : 0 < r.val := Nat.pos_of_ne_zero fun zero => work (Fin.ext zero)
  have small := r.isLt
  have small' := turn.isLt
  unfold rotationPlace
  omega

theorem rotationPlace_getElem (turn : JobRingId) (n : Nat) (inside : n < (rotation turn).length) :
    rotationPlace turn (rotation turn)[n] = n := by
  have bound := rotation_length turn ▸ inside
  have small := turn.isLt
  rw [rotationPlace, rotation_getElem]
  omega

/-- The search finds the first ring of the rotation that is eligible. -/
theorem rotation_find (s : State) (r : JobRingId) (work : r ≠ 0) (eligible : s.eligible r = true)
    (nearest : ∀ j : JobRingId, j ≠ 0 → s.eligible j = true → rotationPlace s.turn r ≤ rotationPlace s.turn j) :
    (rotation s.turn).find? s.eligible = some r := by
  rw [List.find?_eq_some_iff_getElem]
  have inside : rotationPlace s.turn r < (rotation s.turn).length :=
    rotation_length s.turn ▸ Nat.mod_lt _ (by decide)
  refine ⟨eligible, rotationPlace s.turn r, inside, ?_, fun j lower => ?_⟩
  · exact Fin.ext ((rotation_getElem s.turn _ inside).trans (rotation_place s.turn r work))
  · rw [Bool.not_eq_true']
    by_contra found
    have bound : j < (rotation s.turn).length := lower.trans inside
    have isWork : (rotation s.turn)[j] ≠ 0 := fun zero => by
      have value := rotation_getElem s.turn j bound
      rw [zero] at value
      exact Nat.succ_ne_zero _ value.symm
    have far := nearest _ isWork (Bool.eq_true_of_not_eq_false found)
    rw [rotationPlace_getElem s.turn j bound] at far
    exact Nat.not_lt.mpr far lower

/-- A take, once the choice is known. -/
theorem takesFrom_of_choice (s : State) (idle : s.taking = none) (r turn : JobRingId) (left : Nat)
    (chosen : s.choose = some { ring := r, turn, turnLeft := left }) : TakesFrom r turn left s := by
  refine ⟨_, (exec_jobTake_none s).trans (congrArg Host.Outcome.next (takerChoice_of_choice s idle _ chosen)), rfl, fun q => ?_⟩
  refine (State.reportRing_setReportRing s _ q _).trans ?_
  split
  next same => rw [same]
  next => rfl

/-- Settles O12: the three cases of the choice. -/
theorem takerServesTheRotation : Obligations.TakerServesTheRotation := by
  unfold Obligations.TakerServesTheRotation
  refine ⟨fun j => rfl, fun s idle holder => ⟨fun control => ?_, fun notControl eligible left => ?_,
    fun r notControl passes work eligible nearest => ?_⟩⟩
  · exact takesFrom_of_choice s idle 0 _ _ (if_pos control)
  · exact takesFrom_of_choice s idle _ _ _
      ((if_neg (Bool.eq_false_iff.mp notControl)).trans (if_pos ⟨holder, eligible, left⟩))
  · refine takesFrom_of_choice s idle r r _
      ((if_neg (Bool.eq_false_iff.mp notControl)).trans ((if_neg fun h => passes ⟨h.2.1, h.2.2⟩).trans ?_))
    rw [rotation_find s r work eligible nearest]

/-! ### A ring-level NOTICE for RR0 (R152) -/

/-- What the offer of a NOTICE to RR0 leaves of the ring and of its lost count. -/
def NoticeOffered (notice : ReportRecord) (q : ReportRing) (lost : Nat) (q' : ReportRing) (lost' : Nat) : Prop :=
  match q.state, q.withUnsolicited notice none with
  | .opened, some x => q' = x ∧ lost' = 0
  | .opened, none => q' = q ∧ lost' = min (lost + 1) 65535
  | _, _ => q' = q ∧ lost' = lost

/-- The NOTICE of a ring names no session (R152). -/
def ringNotice (status : Status) (value : Word32) (s : State) : ReportRecord :=
  { body := .unsolicited .notice 0 0 s.rr0Lost, status, session := 255, value, flags := {}, stamp := s.stamp }

theorem postRingNotice_eq (status : Status) (value : Word32) (s : State) :
    let u := postRingNotice status value s
    u = { s with reportRings := u.reportRings, rr0Lost := u.rr0Lost } ∧
      (∀ q, q ≠ 0 → u.reportRing q = s.reportRing q) ∧
      NoticeOffered (ringNotice status value s) (s.reportRing 0) s.rr0Lost (u.reportRing 0) u.rr0Lost := by
  intro u
  have offer : (s.reportRing 0).offer (ringNotice status value s) =
      (s.reportRing 0).withUnsolicited (ringNotice status value s) none := ReportRing.offer_eq_withUnsolicited _ _
  unfold NoticeOffered
  by_cases isOpen : (s.reportRing 0).state = .opened
  · cases placed : (s.reportRing 0).withUnsolicited (ringNotice status value s) none with
    | none =>
      have runs : u = { s with rr0Lost := satInc s.rr0Lost } := by
        refine (if_pos isOpen).trans ?_
        change (match (s.reportRing 0).offer (ringNotice status value s) with
          | some ring => { s.setReportRing 0 ring with rr0Lost := 0 }
          | none => { s with rr0Lost := satInc s.rr0Lost }) = _
        rw [offer, placed]
      rw [runs, isOpen]
      exact ⟨rfl, fun _ _ => rfl, rfl, satInc_eq_min s.rr0Lost⟩
    | some x =>
      have runs : u = { s.setReportRing 0 x with rr0Lost := 0 } := by
        refine (if_pos isOpen).trans ?_
        change (match (s.reportRing 0).offer (ringNotice status value s) with
          | some ring => { s.setReportRing 0 ring with rr0Lost := 0 }
          | none => { s with rr0Lost := satInc s.rr0Lost }) = _
        rw [offer, placed]
      rw [runs, isOpen]
      exact ⟨rfl, fun q other => State.reportRing_setReportRing_ne s 0 q x other, State.reportRing_setReportRing_same s 0 x, rfl⟩
  · have runs : u = s := if_neg isOpen
    rw [runs]
    refine ⟨rfl, fun _ _ => rfl, ?_⟩
    cases state : (s.reportRing 0).state with
    | opened => exact absurd state isOpen
    | absent => exact ⟨rfl, rfl⟩
    | broken => exact ⟨rfl, rfl⟩

/-! ### The read of a record fails (R132) -/

theorem exec_recordFetchError (s : State) (r : JobRingId) (reading : s.readsFor r) :
    exec .recordFetchError s = .next (recordFetchFailed r s) := by
  obtain ⟨address, taking⟩ := reading
  change Host.Outcome.next _ = _
  simp only [taking]

theorem returnReservation_waits (q : ReportRingId) (s : State) : (returnReservation q s).waits = s.waits := by
  unfold returnReservation
  split <;> rfl

/-- A part that changes neither sessions nor waits among its records changes report rings alone. -/
theorem RecordFrame.only_reportRings {s t : State} (h : RecordFrame s t) (sessions : t.sessions = s.sessions)
    (waits : t.waits = s.waits) : t = { s with reportRings := t.reportRings } := by
  rw [RecordFrame, sessions, waits] at h
  exact h

/-- A part that ends the take and changes report rings, and then a job ring. -/
theorem updJobRing_only_reportRings {s v : State}
    (h : v = { { s with taking := none } with reportRings := v.reportRings }) (r : JobRingId) (f : JobRing → JobRing) :
    v.updJobRing r f =
      { s with taking := none, jobRings := (v.updJobRing r f).jobRings, reportRings := (v.updJobRing r f).reportRings } := by
  rw [h]
  rfl

/-- Settles O13: the place returns, the ring breaks, and the NOTICE is offered. -/
theorem recordFetchErrorBreaksTheRing : Obligations.RecordFetchErrorBreaksTheRing := by
  unfold Obligations.RecordFetchErrorBreaksTheRing
  intro s r reading bound returned notice
  let t := (returnReservation bound { s with taking := none }).updJobRing r (fun j => { j with state := .broken })
  have runs : exec .recordFetchError s = .next (postRingNotice .jrBroken (jrBrokenValue r (s.jobRing r).take) t) :=
    exec_recordFetchError s r reading
  have rings (q : ReportRingId) : t.reportRing q = returned q := by
    refine (returnReservation_reportRing bound q { s with taking := none }).trans ?_
    by_cases same : q = bound
    · subst same
      rfl
    · exact (if_neg fun h => same h.1).trans (if_neg fun h => same h.1).symm
  have frame : t = { s with taking := none, jobRings := t.jobRings, reportRings := t.reportRings } := by
    have kept := recordFrame_returnReservation bound { s with taking := none }
    have sessions := returnReservation_sessions bound { s with taking := none }
    have waits := returnReservation_waits bound { s with taking := none }
    exact updJobRing_only_reportRings (kept.only_reportRings sessions waits) r _
  have table (j : JobRingId) : t.jobRing j = if j = r then { s.jobRing r with state := .broken } else s.jobRing j := by
    have kept := (recordFrame_returnReservation bound { s with taking := none }).jobRing
    refine (State.jobRing_updJobRing _ r j _).trans ?_
    rw [kept, kept]
    rfl
  clear_value t
  obtain ⟨only, others, offered⟩ := postRingNotice_eq .jrBroken (jrBrokenValue r (s.jobRing r).take) t
  have sent : ringNotice .jrBroken (jrBrokenValue r (s.jobRing r).take) t = notice := by
    rw [frame]
    rfl
  have lost : t.rr0Lost = s.rr0Lost := by rw [frame]
  refine ⟨_, runs, ?_, fun j => ?_, fun q work => (others q work).trans (rings q), ?_⟩
  · rw [only, frame]
  · rw [only]
    exact table j
  · rw [sent, rings 0, lost] at offered
    exact offered

/-! ### A report write fails (R153, R154) -/

/-- Each of the lost records of a session raises its lost count, which saturates. -/
theorem loseRecords_lost (l : List Placed) (s : State) (k : SessionId) (saturated : (s.session k).lost ≤ 65535) :
    (loseRecords l s).session k =
      { s.session k with lost := min ((s.session k).lost + l.countP (fun p => decide (p.owner = some k))) 65535 } := by
  induction l generalizing s with
  | nil =>
    have same : min ((s.session k).lost + 0) 65535 = (s.session k).lost := by omega
    rw [List.countP_nil, same]
    rfl
  | cons p rest ih =>
    rw [loseRecords, List.countP_cons]
    cases owner : p.owner with
    | none => exact ih s saturated
    | some i =>
      have raised (e : Session) : satInc e.lost ≤ 65535 := by rw [satInc_eq_min]; omega
      have step := State.session_updSession s i k (fun e => { e with lost := satInc e.lost })
      by_cases own : k = i
      · subst own
        rw [if_pos rfl] at step
        refine (ih _ (by rw [step]; exact raised _)).trans ?_
        rw [step]
        refine congrArg (fun n => { s.session k with lost := n }) ?_
        change min (satInc (s.session k).lost + _) _ = _
        rw [satInc_eq_min, if_pos (decide_eq_true rfl)]
        omega
      · rw [if_neg own] at step
        refine (ih _ (by rw [step]; exact saturated)).trans ?_
        rw [step, if_neg (by simpa using Ne.symm own), Nat.add_zero]

/-- A part that changes sessions alone, and then a report ring. -/
theorem updReportRing_only_sessions {s v : State} (h : v = { s with sessions := v.sessions }) (q : ReportRingId)
    (f : ReportRing → ReportRing) :
    v.updReportRing q f =
      { s with sessions := (v.updReportRing q f).sessions, reportRings := (v.updReportRing q f).reportRings } := by
  rw [h]
  rfl

theorem exec_reportWriteError (s : State) (q : ReportRingId) (busy : (s.reportRing q).unwritten ≠ []) :
    exec (.reportWriteError q) s = .next (ringBreaks q s) := by
  change Host.Outcome.next _ = _
  cases found : (s.reportRing q).unwritten with
  | nil => exact absurd found busy
  | cons p rest => rfl

/-- Settles O53: the lost counts, the broken ring, and FATAL or the NOTICE. -/
theorem reportWriteErrorBreaksTheRing : Obligations.ReportWriteErrorBreaksTheRing := by
  unfold Obligations.ReportWriteErrorBreaksTheRing
  intro s q busy ring broken notice
  let lost := loseRecords ring.unwritten s
  let t := lost.updReportRing q ReportRing.broke
  have runs : exec (.reportWriteError q) s =
      .next (if q = 0 then { t with fatalCause := .rr0Broken } else postRingNotice .rrBroken (toWord q.val) t) :=
    exec_reportWriteError s q busy
  have counted (k : SessionId) (saturated : (s.session k).lost ≤ 65535) : t.session k = { s.session k with
      lost := min ((s.session k).lost + ring.unwritten.countP (fun p => decide (p.owner = some k))) 65535 } :=
    loseRecords_lost ring.unwritten s k saturated
  have only : lost = { s with sessions := lost.sessions } := loseRecords_frame ring.unwritten s
  have frame : t = { s with sessions := t.sessions, reportRings := t.reportRings } :=
    updReportRing_only_sessions only q _
  have rings (i : ReportRingId) : t.reportRing i = if i = q then broken else s.reportRing i := by
    have same (x : ReportRingId) : lost.reportRing x = s.reportRing x := State.reportRing_congr s lost (by rw [only]) x
    refine (State.reportRing_updReportRing lost q i _).trans ?_
    rw [same, same]
    rfl
  clear_value t
  rw [runs]
  by_cases control : q = 0
  · subst control
    rw [if_pos rfl, if_pos rfl]
    refine ⟨_, rfl, ?_, (rings 0).trans (if_pos rfl), fun i other _ => (rings i).trans (if_neg other), counted, fun _ => ?_,
      fun not => absurd rfl not⟩
    · rw [frame]
    · rw [frame]
  · rw [if_neg control, if_neg control]
    obtain ⟨unsent, others, offered⟩ := postRingNotice_eq .rrBroken (toWord q.val) t
    have sent : ringNotice .rrBroken (toWord q.val) t = notice := by
      rw [frame]
      rfl
    have known : t.rr0Lost = s.rr0Lost := by rw [frame]
    refine ⟨_, rfl, ?_, (others q control).trans ((rings q).trans (if_pos rfl)),
      fun i other work => (others i work).trans ((rings i).trans (if_neg other)), fun k saturated => ?_,
      fun same => absurd same control, fun _ => ?_⟩
    · rw [unsent, frame]
    · rw [unsent]
      exact counted k saturated
    · rw [sent, (rings 0).trans (if_neg (Ne.symm control)), known] at offered
      exact offered

end Sys2Proof.Machine

/-!
PROOFS. The layout of a report record and the codes of its status (R178, R179), a bus write that completes with its notification,
and the expiry of a batch timer (R146, R158 to R160).
-/

namespace Sys2Proof.Machine

/-! ### The bytes of a record (R174, R178) -/

/-- A field inside a byte. -/
theorem toNat_field (x : BitVec 128) (offset bit width : Nat) (inside : bit + width ≤ 8) :
    (x.extractLsb' (8 * offset + bit) width).toNat = (x.extractLsb' (8 * offset) 8).toNat / 2 ^ bit % 2 ^ width := by
  refine Nat.eq_of_testBit_eq fun i => ?_
  simp only [BitVec.extractLsb'_toNat, Nat.testBit_mod_two_pow, Nat.testBit_shiftRight, Nat.testBit_div_two_pow]
  by_cases small : i < width
  · have lower : i + bit < 8 := by omega
    have place : 8 * offset + bit + i = 8 * offset + (i + bit) := by omega
    simp [small, lower, place]
  · simp [small]

/-- A bit of a byte. -/
theorem getLsbD_byte (x : BitVec 128) (offset bit : Nat) (inside : bit < 8) :
    x.getLsbD (8 * offset + bit) = (x.extractLsb' (8 * offset) 8).getLsbD bit := by
  rw [BitVec.getLsbD_extractLsb', decide_eq_true inside, Bool.true_and]

/-- Byte 0. -/
def ReportRecord.byte0 (r : ReportRecord) (lap : Bool) : Byte := r.body.kindBits ||| if lap then 0x80 else 0

theorem ReportRecord.toNat_encode (r : ReportRecord) (lap : Bool) :
    (r.encode lap).toNat =
      (r.byte0 lap).toNat + r.body.byte1.toNat * 2 ^ 8 + r.flags.bits.toNat * 2 ^ 16 + r.status.code.toNat * 2 ^ 24 +
        r.session.toNat * 2 ^ 32 + r.body.byte5.toNat * 2 ^ 40 + r.body.half6.toNat * 2 ^ 48 + r.value.toNat * 2 ^ 64 +
          r.stamp.toNat * 2 ^ 96 := by
  refine (toNat_append_eq (_ ++ r.body.byte1) (r.byte0 lap)).trans ?_
  simp only [toNat_append_eq]
  omega

/-- A field of whole bytes stands at its place. -/
theorem extractLsb'_of_toNat {v : Nat} (x : BitVec 128) (y : BitVec v) (place below above : Nat)
    (value : x.toNat = below + y.toNat * 2 ^ place + above * 2 ^ (place + v)) (small : below < 2 ^ place) :
    x.extractLsb' place v = y := by
  apply BitVec.eq_of_toNat_eq
  have sum : x.toNat = below + 2 ^ place * (y.toNat + 2 ^ v * above) := by rw [value, pow_add]; ring
  rw [BitVec.extractLsb'_toNat, Nat.shiftRight_eq_div_pow, sum, Nat.add_mul_div_left _ _ (Nat.two_pow_pos place),
    Nat.div_eq_of_lt small, Nat.zero_add, Nat.add_mul_mod_self_left, Nat.mod_eq_of_lt y.isLt]

/-- The bytes of an encoded record. -/
theorem ReportRecord.encode_bytes (r : ReportRecord) (lap : Bool) :
    let bytes := r.encode lap
    bytes.extractLsb' 0 8 = r.byte0 lap ∧ bytes.extractLsb' 8 8 = r.body.byte1 ∧ bytes.extractLsb' 16 8 = r.flags.bits ∧
      bytes.extractLsb' 24 8 = r.status.code ∧ bytes.extractLsb' 32 8 = r.session ∧ bytes.extractLsb' 40 8 = r.body.byte5 ∧
      bytes.extractLsb' 48 16 = r.body.half6 ∧ bytes.extractLsb' 64 32 = r.value ∧ bytes.extractLsb' 96 32 = r.stamp := by
  intro bytes
  have sum := r.toNat_encode lap
  have b0 := (r.byte0 lap).isLt
  have b1 := r.body.byte1.isLt
  have b2 := r.flags.bits.isLt
  have b3 := r.status.code.isLt
  have b4 := r.session.isLt
  have b5 := r.body.byte5.isLt
  have b6 := r.body.half6.isLt
  have b7 := r.value.isLt
  have field {v : Nat} (y : BitVec v) (place below above : Nat)
      (value : bytes.toNat = below + y.toNat * 2 ^ place + above * 2 ^ (place + v)) (small : below < 2 ^ place) :=
    extractLsb'_of_toNat bytes y place below above value small
  change bytes.toNat = _ at sum
  generalize bytes.toNat = n at *
  refine ⟨field _ 0 0 (n / 2 ^ 8) ?_ ?_, field _ 8 (n % 2 ^ 8) (n / 2 ^ 16) ?_ ?_, field _ 16 (n % 2 ^ 16) (n / 2 ^ 24) ?_ ?_,
    field _ 24 (n % 2 ^ 24) (n / 2 ^ 32) ?_ ?_, field _ 32 (n % 2 ^ 32) (n / 2 ^ 40) ?_ ?_,
    field _ 40 (n % 2 ^ 40) (n / 2 ^ 48) ?_ ?_, field _ 48 (n % 2 ^ 48) (n / 2 ^ 64) ?_ ?_,
    field _ 64 (n % 2 ^ 64) (n / 2 ^ 96) ?_ ?_, field _ 96 (n % 2 ^ 96) 0 ?_ ?_⟩
  all_goals omega

theorem Status.hasCode (status : Status) : HasCode status status.code.toNat := by
  unfold HasCode
  cases status <;> decide

/-- The five flags of byte 2; its other bits are 0. -/
theorem RecordFlags.bits_layout (f : RecordFlags) :
    f.bits.getLsbD 0 = f.replaced ∧ f.bits.getLsbD 1 = f.isPartial ∧ f.bits.getLsbD 2 = f.wrapped ∧
      f.bits.getLsbD 3 = f.down ∧ f.bits.getLsbD 4 = f.captureEmpty ∧ f.bits.toNat / 2 ^ 5 % 2 ^ 3 = 0 := by
  obtain ⟨a, b, c, d, e⟩ := f
  revert a b c d e
  decide

theorem RecordBody.kindBits_cases (body : RecordBody) :
    body.kindBits = 0 ∨ body.kindBits = 1 ∨ body.kindBits = 2 ∨ body.kindBits = 3 := by
  rcases body with _ | ⟨kind, _, _, _⟩
  · exact .inl rfl
  · cases kind
    · exact .inr (.inl rfl)
    · exact .inr (.inr (.inl rfl))
    · exact .inr (.inr (.inr rfl))

/-- The kind and the lap bit of byte 0; its other bits are 0. -/
theorem ReportRecord.byte0_layout (r : ReportRecord) (lap : Bool) :
    (r.byte0 lap).toNat / 2 ^ 2 % 2 ^ 5 = 0 ∧ (r.byte0 lap).getLsbD 7 = lap ∧
      (r.byte0 lap).toNat / 2 ^ 0 % 2 ^ 2 = r.body.kindBits.toNat := by
  unfold ReportRecord.byte0
  rcases r.body.kindBits_cases with kind | kind | kind | kind
  all_goals
    rw [kind]
    revert lap
    decide

/-- The record is laid out by R178. -/
theorem ReportRecord.encode_laidOut (r : ReportRecord) (lap : Bool) : LaidOut r lap (r.encode lap) := by
  obtain ⟨e0, e1, e2, e3, e4, e5, e6, e7, e8⟩ := r.encode_bytes lap
  obtain ⟨unused, lapBit, kind⟩ := r.byte0_layout lap
  obtain ⟨f0, f1, f2, f3, f4, rest⟩ := r.flags.bits_layout
  have code := r.status.hasCode
  unfold LaidOut
  generalize r.encode lap = x at *
  have flag (n : Nat) (small : n < 8) : x.getLsbD (16 + n) = r.flags.bits.getLsbD n := by
    rw [← e2]
    exact getLsbD_byte x 2 n small
  have in0 (bit width : Nat) (inside : bit + width ≤ 8) :
      (x.extractLsb' (8 * 0 + bit) width).toNat = (r.byte0 lap).toNat / 2 ^ bit % 2 ^ width := by
    rw [toNat_field x 0 bit width inside, ← e0]
  have in1 (bit width : Nat) (inside : bit + width ≤ 8) :
      (x.extractLsb' (8 * 1 + bit) width).toNat = r.body.byte1.toNat / 2 ^ bit % 2 ^ width := by
    rw [toNat_field x 1 bit width inside, ← e1]
  have in2 : (x.extractLsb' (8 * 2 + 5) 3).toNat = r.flags.bits.toNat / 2 ^ 5 % 2 ^ 3 := by
    rw [toNat_field x 2 5 3 (by omega), ← e2]
  have last : x.getLsbD 7 = (r.byte0 lap).getLsbD 7 := by
    rw [← e0]
    exact getLsbD_byte x 0 7 (by omega)
  refine ⟨(in0 2 5 (by omega)).trans unused, last.trans lapBit, (flag 0 (by omega)).trans f0, (flag 1 (by omega)).trans f1,
    (flag 2 (by omega)).trans f2, (flag 3 (by omega)).trans f3, (flag 4 (by omega)).trans f4, in2.trans rest, ?_,
    congrArg BitVec.toNat e4, congrArg BitVec.toNat e7, congrArg BitVec.toNat e8, ?_⟩
  · rw [← e3] at code
    exact code
  · have half := congrArg BitVec.toNat e6
    have five := congrArg BitVec.toNat e5
    generalize r.body = body at *
    cases body with
    | job ring taken tag =>
      have small := ring.isLt
      have byte : (RecordBody.job ring taken tag).byte1.toNat = ring.val + taken / 256 % 4 * 16 := by
        simp only [RecordBody.byte1, toByte, BitVec.toNat_ofNat]
        omega
      rw [byte] at in1
      refine ⟨(in0 0 2 (by omega)).trans kind, (in1 0 3 (by omega)).trans (by omega), (in1 3 1 (by omega)).trans (by omega),
        (in1 6 2 (by omega)).trans (by omega), fun bound => ⟨(in1 4 2 (by omega)).trans (by omega), five.trans ?_⟩, half⟩
      exact BitVec.toNat_ofNat taken 8
    | unsolicited u index seq lost =>
      have byte : (RecordBody.unsolicited u index seq lost).byte1.toNat = index % 16 := by
        simp only [RecordBody.byte1, toByte, BitVec.toNat_ofNat]
        omega
      rw [byte] at in1
      refine ⟨((in0 0 2 (by omega)).trans kind).trans ?_, (in1 4 4 (by omega)).trans (by omega),
        fun bound => (in1 0 4 (by omega)).trans (by omega), five, fun bound => half.trans ?_⟩
      · cases u <;> rfl
      · exact (BitVec.toNat_ofNat lost 16).trans (Nat.mod_eq_of_lt bound)

/-! ### Notification (R158 to R160) -/

/-- What Notification makes of a ring and the INT_PENDING bits when one of its records is written. -/
def Notified (q : ReportRingId) (mode : NotifyMode) (ring : ReportRing) (bits : BitVec 8) (ring' : ReportRing) (bits' : BitVec 8) : Prop :=
  match mode with
  | .off => ring' = ring ∧ bits' = bits
  | .each => ring' = ring ∧ bits' = bits ||| 1#8 <<< q.val
  | .batch count time =>
    if count ≤ ring.unnotified + 1 then
      ring' = { ring with unnotified := 0, batchTimer := none } ∧ bits' = bits ||| 1#8 <<< q.val
    else
      ring' = { ring with unnotified := ring.unnotified + 1,
                          batchTimer := if ring.unnotified = 0 then some (100 * time) else ring.batchTimer } ∧
        bits' = bits

theorem recordWritten_notified (q : ReportRingId) (v : State) :
    let u := recordWritten q v
    u = { v with reportRings := u.reportRings, intPending := u.intPending } ∧ (∀ i, i ≠ q → u.reportRing i = v.reportRing i) ∧
      Notified q (v.reportRing q).notify (v.reportRing q) v.intPending (u.reportRing q) u.intPending := by
  unfold recordWritten
  have own (f : ReportRing → ReportRing) : (v.updReportRing q f).reportRing q = f (v.reportRing q) :=
    (State.reportRing_updReportRing v q q f).trans (if_pos rfl)
  have others (f : ReportRing → ReportRing) (i : ReportRingId) (other : i ≠ q) :
      (v.updReportRing q f).reportRing i = v.reportRing i :=
    (State.reportRing_updReportRing v q i f).trans (if_neg other)
  split
  next off => exact ⟨rfl, fun _ _ => rfl, by rw [off]; exact ⟨rfl, rfl⟩⟩
  next each => exact ⟨rfl, fun _ _ => rfl, by rw [each]; exact ⟨rfl, rfl⟩⟩
  next count time batch =>
    rw [batch]
    unfold Notified
    dsimp only
    by_cases full : count ≤ (v.reportRing q).unnotified + 1
    · rw [if_pos full, if_pos full]
      exact ⟨rfl, others _, own _, rfl⟩
    · rw [if_neg full, if_neg full]
      by_cases first : (v.reportRing q).unnotified = 0
      · rw [if_pos (by omega), if_pos first]
        exact ⟨rfl, others _, own _, rfl⟩
      · rw [if_neg (by omega), if_neg first]
        exact ⟨rfl, others _, own _, rfl⟩

theorem exec_reportWriteDone (s : State) (q : ReportRingId) (p : Placed) (rest : List Placed)
    (oldest : (s.reportRing q).unwritten = p :: rest) : exec (.reportWriteDone q) s = .next (writeDone q p rest s) := by
  change Host.Outcome.next _ = _
  rw [oldest]

theorem exec_batchTimerExpiry (s : State) (q : ReportRingId) :
    exec (.batchTimerExpiry q) s =
      .next (if (s.reportRing q).batchTimer = some 0 then raiseBit q (s.updReportRing q ReportRing.restartBatch) else s) := rfl

/-- Settles O52: the layout, the write in host memory with its notification, and the batch timer. -/
theorem reportWriteDoneAndBatchTimerNotify : Obligations.ReportWriteDoneAndBatchTimerNotify := by
  unfold Obligations.ReportWriteDoneAndBatchTimerNotify
  refine ⟨ReportRecord.encode_laidOut, fun n => ⟨rfl, rfl⟩, ?_,
    fun s q => ⟨fun going => ?_, fun expired => ?_⟩⟩
  · intro s q p rest oldest ring address bit
    have inside (n : Nat) (h : n < 16) := s.hostMemory.read_record_inside address n (p.record.encode p.lap) h
    have outside (a : Nat) (h : a < address ∨ address + 16 ≤ a) :=
      s.hostMemory.read_record_outside address a (p.record.encode p.lap) h
    have runs : exec (.reportWriteDone q) s = .next (recordWritten q
        (({ s with hostMemory := s.hostMemory.writeBytes address (recordBytes (p.record.encode p.lap)) } :
          State).updReportRing q (fun r => { r with unwritten := rest }))) := exec_reportWriteDone s q p rest oldest
    generalize s.hostMemory.writeBytes address (recordBytes (p.record.encode p.lap)) = m at inside outside runs
    obtain ⟨only, others, notified⟩ :=
      recordWritten_notified q (({ s with hostMemory := m } : State).updReportRing q (fun r => { r with unwritten := rest }))
    have own : (({ s with hostMemory := m } : State).updReportRing q (fun r => { r with unwritten := rest })).reportRing q =
        { ring with unwritten := rest } := (State.reportRing_updReportRing _ q q _).trans (if_pos rfl)
    have kept (i : ReportRingId) (other : i ≠ q) :
        (({ s with hostMemory := m } : State).updReportRing q (fun r => { r with unwritten := rest })).reportRing i =
          s.reportRing i := (State.reportRing_updReportRing _ q i _).trans (if_neg other)
    refine ⟨_, runs, ?_, ?_, ?_, fun i other => (others i other).trans (kept i other), ?_⟩
    · rw [only]
      rfl
    · rw [only]
      exact inside
    · rw [only]
      exact outside
    · rw [own] at notified
      exact notified
  · rw [exec_batchTimerExpiry, if_neg going]
  · refine ⟨_, (exec_batchTimerExpiry s q).trans (congrArg Host.Outcome.next (if_pos expired)), rfl, fun i => ?_⟩
    exact State.reportRing_updReportRing s q i _

end Sys2Proof.Machine

/-!
PROOFS. Unsolicited records at their ring, and the drain record by record (R145, R148 to R151, R153, R154).
-/

namespace Sys2Proof.Machine

/-! ### An unsolicited record is written, parked or lost (R149, R151, R154) -/

theorem nextRecord_offer (i : SessionId) (kind : UnsolicitedKind) (status : Status) (index value : Nat) (flags : RecordFlags)
    (s : State) (q : ReportRing) :
    q.offer (sessionRecord i (s.session i) kind status index value flags s.stamp) =
      q.withUnsolicited (nextRecord i kind status index value flags s) (some i) := by
  have same : sessionRecord i (s.session i) kind status index value flags s.stamp =
      nextRecord i kind status index value flags s := rfl
  rw [same, ReportRing.offer_eq_withUnsolicited, nextRecord_sessionOf]

/-- Written or parked, the record carries the lost count. -/
theorem postRecord_of_placed (i : SessionId) (kind : UnsolicitedKind) (status : Status) (index value : Nat)
    (flags : RecordFlags) (s : State) (q : ReportRingId) (x : ReportRing) (ring : (s.session i).reportRing = some q)
    (isOpen : (s.reportRing q).state = .opened)
    (placed : (s.reportRing q).withUnsolicited (nextRecord i kind status index value flags s) (some i) = some x) :
    postRecord i kind status index value flags s =
      (s.setReportRing q x).setSession i { s.session i with seq := (s.session i).seq + 1, lost := 0 } := by
  change _ = (s.setReportRing q x).setSession i (s.session i).tookRecord
  simp only [postRecord, ring, if_pos isOpen, nextRecord_offer, placed]

/-- Dropped, or for a ring that is not OPEN, the record raises the lost count. -/
theorem postRecord_of_dropped (i : SessionId) (kind : UnsolicitedKind) (status : Status) (index value : Nat)
    (flags : RecordFlags) (s : State)
    (dropped : ∀ q, (s.session i).reportRing = some q → (s.reportRing q).state = .opened →
      (s.reportRing q).withUnsolicited (nextRecord i kind status index value flags s) (some i) = none) :
    postRecord i kind status index value flags s =
      s.setSession i
        { s.session i with seq := (s.session i).seq + 1, lost := min ((s.session i).lost + 1) 65535 } := by
  have entry : (s.session i).droppedRecord =
      { s.session i with seq := (s.session i).seq + 1, lost := min ((s.session i).lost + 1) 65535 } := by
    rw [Session.droppedRecord, satInc_eq_min]
  rw [← entry]
  cases ring : (s.session i).reportRing with
  | none => simp only [postRecord, ring]
  | some q =>
    by_cases isOpen : (s.reportRing q).state = .opened
    · simp only [postRecord, ring, if_pos isOpen, nextRecord_offer, dropped q ring isOpen]
    · simp only [postRecord, ring, if_neg isOpen]

theorem recordFrame_eq_sessions_rings (i : SessionId) (kind : UnsolicitedKind) (status : Status) (index value : Nat)
    (flags : RecordFlags) (s : State) :
    let u := postRecord i kind status index value flags s
    u = { s with sessions := u.sessions, reportRings := u.reportRings } := by
  unfold postRecord
  dsimp only
  split
  · rfl
  · split
    · split <;> rfl
    · rfl

theorem ReportRecord.sessionOf_eq_namedSession (rec : ReportRecord) : rec.sessionOf = namedSession rec := by
  unfold ReportRecord.sessionOf namedSession
  cases rec.body with
  | job => rfl
  | unsolicited =>
    dsimp only
    split
    next small =>
      symm
      rw [List.find?_eq_some_iff_getElem]
      refine ⟨decide_eq_true rfl, rec.session.toNat, by simpa using small, by simp, fun j lower => ?_⟩
      simp only [List.getElem_finRange, Fin.cast_mk, decide_eq_false_iff_not, Bool.not_eq_true']
      omega
    next large =>
      symm
      rw [List.find?_eq_none]
      intro k _ named
      exact large (of_decide_eq_true named ▸ k.isLt)

/-! ### The drain, record by record (R150) -/

theorem ReportRing.place_eq_withParked (q : ReportRing) (rec : ReportRecord) : q.place rec = q.withParked rec := by
  rw [ReportRing.place, ReportRing.withParked, rec.sessionOf_eq_namedSession]

theorem ReportRing.placeAll_eq_foldl (q : ReportRing) (l : List ReportRecord) : q.placeAll l = l.foldl ReportRing.withParked q :=
  congrArg (fun f => l.foldl f q) (funext fun x => funext x.place_eq_withParked)

theorem ReportRing.placeAll_records (q : ReportRing) (l : List ReportRecord) :
    (q.placeAll l).unwritten.map Placed.record = q.unwritten.map Placed.record ++ l := by
  induction l generalizing q with
  | nil => simp [ReportRing.placeAll]
  | cons rec rest ih =>
    rw [ReportRing.placeAll_cons, ih]
    simp [ReportRing.place]

/-- Consecutive slots, modulo the size. -/
theorem ReportRing.placeAll_slots (q : ReportRing) (l : List ReportRecord) (inside : q.writeIndex < q.size) :
    (q.placeAll l).writeIndex = (q.writeIndex + l.length) % q.size ∧
      (q.placeAll l).unwritten.map Placed.slot =
        q.unwritten.map Placed.slot ++ (List.range l.length).map (fun i => (q.writeIndex + i) % q.size) := by
  induction l generalizing q with
  | nil => simp [ReportRing.placeAll, Nat.mod_eq_of_lt inside]
  | cons rec rest ih =>
    obtain ⟨write, slots⟩ := ih (q.place rec) (q.place_writeIndex_lt rec inside)
    have size : (q.place rec).size = q.size := rfl
    have next (n : Nat) : ((q.place rec).writeIndex + n) % q.size = (q.writeIndex + (n + 1)) % q.size := by
      simp only [ReportRing.place]
      split
      next wraps =>
        have sum : q.writeIndex + (n + 1) = n + q.size := by omega
        rw [sum, Nat.add_mod_right, Nat.zero_add]
      next => rw [Nat.add_assoc, Nat.add_comm 1]
    rw [size] at write slots
    refine ⟨?_, ?_⟩
    · rw [ReportRing.placeAll_cons, write, next]
      rfl
    · rw [ReportRing.placeAll_cons, slots, List.length_cons, List.range_succ_eq_map]
      simp only [next, List.map_cons, List.map_map]
      simp [ReportRing.place, Nat.mod_eq_of_lt inside, Function.comp_def]

/-- Settles O51: the offer of a record case by case, and the drain as placing one after another. -/
theorem unsolicitedRecordsParkAndDrainInOrder : Obligations.UnsolicitedRecordsParkAndDrainInOrder := by
  unfold Obligations.UnsolicitedRecordsParkAndDrainInOrder
  refine ⟨fun s i kind status index value flags => ?_, ReportRecord.sessionOf_eq_namedSession, fun q => ⟨q.freeSpace_eq, ?_⟩⟩
  · intro e rec' u
    have others (j : SessionId) (other : j ≠ i) : u.session j = s.session j :=
      ((postRecord_eq i kind status index value flags s).2 j).trans (if_neg other)
    refine ⟨recordFrame_eq_sessions_rings i kind status index value flags s, others, fun q ring isOpen => ⟨fun x placed => ?_,
      fun full => ?_⟩, fun closed => ?_⟩
    · have posted : u = (s.setReportRing q x).setSession i { e with seq := e.seq + 1, lost := 0 } :=
        postRecord_of_placed i kind status index value flags s q x ring isOpen placed
      rw [posted]
      exact ⟨State.session_setSession_same _ _ _, fun p => State.reportRing_setReportRing s q p x⟩
    · have posted : u = s.setSession i { e with seq := e.seq + 1, lost := min (e.lost + 1) 65535 } := by
        refine postRecord_of_dropped i kind status index value flags s fun q' ring' _ => ?_
        obtain rfl : q = q' := Option.some.inj (ring.symm.trans ring')
        exact full
      rw [posted]
      exact ⟨State.session_setSession_same _ _ _, rfl⟩
    · have posted : u = s.setSession i { e with seq := e.seq + 1, lost := min (e.lost + 1) 65535 } :=
        postRecord_of_dropped i kind status index value flags s fun q ring isOpen => absurd isOpen (closed q ring)
      rw [posted]
      exact ⟨State.session_setSession_same _ _ _, rfl⟩
  · intro n
    have count : q.drainCount = n := by rw [ReportRing.drainCount, q.freeSpace_eq]
    have length : (q.store.take n).length = n := by
      rw [List.length_take]
      omega
    have drained := q.drain_eq
    have frame := q.drain_frame
    rw [count] at drained frame
    have unwritten : q.drain.unwritten = (q.placeAll (q.store.take n)).unwritten := by rw [drained]
    refine ⟨?_, by rw [frame], by rw [frame], by rw [frame], ?_, fun inside => ?_, by rw [frame], by rw [frame], by rw [frame],
      by rw [frame]⟩
    · rw [drained, q.placeAll_eq_foldl]
    · rw [unwritten, q.placeAll_records]
    · obtain ⟨write, slots⟩ := q.placeAll_slots (q.store.take n) inside
      rw [length] at write slots
      refine ⟨?_, ?_⟩
      · rw [drained]
        exact write
      · rw [unwritten, List.map_drop, slots, List.drop_append_of_le_length (by simp)]
        simp

end Sys2Proof.Machine

/-!
PROOFS. The arrival of a fetched record, its kind, and the common validation in its order (R126, R130, R134, R136, R174, R175).
-/

namespace Sys2Proof.Machine

/-! ### The arrival (R126, R130) -/

theorem takeAdvanced_of_advance (r : JobRingId) (v : State) :
    TakeAdvanced r v { v.updJobRing r JobRing.advance with taking := none } :=
  ⟨rfl, fun j => State.jobRing_updJobRing v r j JobRing.advance⟩

theorem recordArrives_takeAdvanced (r : JobRingId) (s : State) : TakeAdvanced r (settle s) (recordArrives r s) :=
  takeAdvanced_of_advance r (settle s)

/-! ### Kinds and their commands (R175) -/

/-- The table lists each kind once, with its code. -/
theorem mem_kindCodes_iff (k : Kind) (n : Nat) : (k, n) ∈ kindCodes ↔ k.code.toNat = n := by
  have listed : ∀ p ∈ kindCodes, p.1.code.toNat = p.2 := by decide
  have every : (k, k.code.toNat) ∈ kindCodes := by cases k <;> decide
  exact ⟨fun mem => listed (k, n) mem, fun code => code ▸ every⟩

theorem Kind.ofCode_code (k : Kind) : Kind.ofCode k.code = some k := by
  cases k <;> rfl

theorem Kind.ofCode_eq_some_iff (k : Kind) (code : Byte) : Kind.ofCode code = some k ↔ k.code = code := by
  refine ⟨fun found => ?_, fun same => same ▸ Kind.ofCode_code k⟩
  exact eq_of_beq (List.find?_some (p := fun x : Kind => x.code == code) found)

theorem exec_jobTake_some (w : JobRecord) (s : State) : exec (.jobTake (some w)) s = .next (withTaken (jobOfRecord w) s) := rfl

theorem exec_kind_command (k : Kind) (w : JobRecord) (s : State) : exec (k.command w) s = .next (withTaken (jobOf k w) s) := by
  cases k <;> rfl

theorem jobOfRecord_of_kind (w : JobRecord) (k : Kind) (kind : Kind.ofCode w.kindCode = some k) : jobOfRecord w = jobOf k w := by
  rw [jobOfRecord, kind]

/-- The three classes of kinds, each with its common validation. -/
theorem jobOf_class (k : Kind) (w : JobRecord) :
    (k = .openJob ∧ jobOf k w = openChecked w) ∨
      (k ≠ .openJob ∧ k.isControl = false ∧ ∃ body, jobOf k w = workJob body w) ∨
        (k.isControl = true ∧ ∃ body, jobOf k w = controlJob body w) := by
  cases k
  case openJob => exact .inl ⟨rfl, rfl⟩
  case makeJobRing | dropJobRing | restartJobRing | makeReportRing | dropReportRing | tuneReportRing | lineSetup =>
    exact .inr (.inr ⟨rfl, _, rfl⟩)
  all_goals exact .inr (.inl ⟨nofun, rfl, _, rfl⟩)

/-! ### The common validation (R134) -/

theorem sessionOf_eq_some_iff (b : Byte) (k : SessionId) : sessionOf b = some k ↔ b.toNat = k.val := by
  unfold sessionOf
  split
  · rw [Option.some_inj, Fin.ext_iff]
  next large =>
    refine ⟨nofun, fun same => absurd k.isLt ?_⟩
    rwa [← same]

theorem sessionOf_eq_none (b : Byte) (large : 32 ≤ b.toNat) : sessionOf b = none := dif_neg (Nat.not_lt.mpr large)

/-- A work job whose target fails is refused with the status of the failure. -/
theorem workJob_refused (body : JobRingId → SessionId → JobRecord → State → State) (w : JobRecord) (r : JobRingId)
    (status : Status) (t : State) (target : workTarget r w t = .error status) (refusal : status.cls = .refusal) :
    RefusedWith r w.tag status w.session 0 t (.next (workJob body w r t)) := by
  rw [workJob, target]
  exact reply_refused r w status 0 t refusal

theorem workTarget_of_control_ring (w : JobRecord) (t : State) : workTarget 0 w t = .error .wrongRing := if_pos rfl

theorem workTarget_of_bad_session (r : JobRingId) (w : JobRecord) (t : State) (work : r ≠ 0) (none : sessionOf w.session = none) :
    workTarget r w t = .error .badSession := by
  rw [workTarget, if_neg work, none]

theorem workTarget_of_free (r : JobRingId) (w : JobRecord) (t : State) (i : SessionId) (work : r ≠ 0)
    (named : sessionOf w.session = some i) (free : (t.session i).state = .free) : workTarget r w t = .error .wrongState := by
  rw [workTarget, if_neg work, named]
  exact if_pos free

theorem workTarget_of_other_owner (r : JobRingId) (w : JobRecord) (t : State) (i : SessionId) (work : r ≠ 0)
    (named : sessionOf w.session = some i) (live : (t.session i).state ≠ .free) (other : (t.session i).owner ≠ some r) :
    workTarget r w t = .error .notOwner := by
  rw [workTarget, if_neg work, named]
  exact (if_neg live).trans (if_neg other)

/-- The refusals of the common validation at the state after the arrival. -/
theorem jobOf_refused (k : Kind) (w : JobRecord) (r : JobRingId) (t : State) :
    let o : Host.Outcome State Fault Refusal := .next (jobOf k w r t)
    (k.isControl = true → r ≠ 0 → RefusedWith r w.tag .wrongRing 255 0 t o) ∧
      (k.isControl = false → r = 0 → RefusedWith r w.tag .wrongRing w.session 0 t o) ∧
      (k.isControl = false → r ≠ 0 → 32 ≤ w.session.toNat → ¬(k = .openJob ∧ w.session = 255) →
        RefusedWith r w.tag .badSession w.session 0 t o) ∧
      ∀ i : SessionId, k.isControl = false → k ≠ .openJob → r ≠ 0 → w.session.toNat = i.val →
        ((t.session i).state = .free → RefusedWith r w.tag .wrongState w.session 0 t o) ∧
        ((t.session i).state ≠ .free → (t.session i).owner ≠ some r → RefusedWith r w.tag .notOwner w.session 0 t o) := by
  rcases jobOf_class k w with ⟨rfl, job⟩ | ⟨notOpen, isWork, body, job⟩ | ⟨control, body, job⟩
  · rw [job]
    refine ⟨nofun, fun _ zero => ?_, fun _ work large other => ?_, fun _ _ not => absurd rfl not⟩
    · rw [openChecked, if_pos zero]
      exact reply_refused r w .wrongRing 0 t rfl
    · have fails : (sessionOf w.session).isNone = true ∧ w.session ≠ 255 :=
        ⟨by rw [sessionOf_eq_none _ large]; rfl, fun same => other ⟨rfl, same⟩⟩
      rw [openChecked, if_neg work, if_pos fails]
      exact reply_refused r w .badSession 0 t rfl
  · rw [job, isWork]
    refine ⟨nofun, fun _ zero => ?_, fun _ work large _ => ?_, fun i _ _ work named => ⟨fun free => ?_, fun live other => ?_⟩⟩
    · subst zero
      exact workJob_refused body w 0 .wrongRing t (workTarget_of_control_ring w t) rfl
    · exact workJob_refused body w r .badSession t (workTarget_of_bad_session r w t work (sessionOf_eq_none _ large)) rfl
    · have named := (sessionOf_eq_some_iff w.session i).mpr named
      exact workJob_refused body w r .wrongState t (workTarget_of_free r w t i work named free) rfl
    · have named := (sessionOf_eq_some_iff w.session i).mpr named
      exact workJob_refused body w r .notOwner t (workTarget_of_other_owner r w t i work named live other) rfl
  · rw [job, control]
    refine ⟨fun _ work => ?_, nofun, nofun, nofun⟩
    rw [controlJob, if_neg work]
    exact replyControl_refused r w .wrongRing 0 t rfl

/-- Settles O14: the arrival, the fields, the kinds, and the refusals. -/
theorem commonValidationRefuses : Obligations.CommonValidationRefuses := by
  unfold Obligations.CommonValidationRefuses
  refine ⟨fun s r => ⟨fun agree => ⟨settle s, settle_taken s agree, recordArrives_takeAdvanced r s⟩, fun settled => ?_⟩,
    fun w n => ⟨rfl, fun small => ?_, rfl, rfl, rfl, rfl, rfl, rfl⟩, sessionOf_eq_some_iff, fun k code => ?_,
    fun w s idle => ?_, fun w s k kind => ?_, fun w s r reading => ?_⟩
  · have advanced := recordArrives_takeAdvanced r s
    rwa [settle_of_settled s settled] at advanced
  · rw [JobRecord.flag, JobRecord.byte, BitVec.getLsbD_extractLsb', decide_eq_true small, Bool.true_and]
  · rw [Kind.ofCode_eq_some_iff, mem_kindCodes_iff]
    exact ⟨congrArg BitVec.toNat, BitVec.eq_of_toNat_eq⟩
  · rw [exec_jobTake_some, withTaken_no_read _ s idle]
  · rw [exec_jobTake_some, exec_kind_command, jobOfRecord_of_kind w k kind]
  · intro t
    have job (j : JobRingId → State → State) : withTaken j s = j r t := withTaken_reading j s r reading
    rw [exec_jobTake_some, job]
    clear_value t
    refine ⟨fun noKind => ?_, fun k => ?_⟩
    · rw [jobOfRecord, noKind]
      exact reply_refused r w .badKind 0 t rfl
    · rw [exec_kind_command, job]
      exact jobOf_refused k w r t

end Sys2Proof.Machine

/-!
PROOFS. The selection of OPEN, its refusals in their order (R6 to R8), the parameters that it accepts (R7, R176), and the entry that
it configures (R9).
-/

namespace Sys2Proof.Machine

/-! ### The selection (R6) -/

theorem openSelect_of_named (w : JobRecord) (t : State) (k : SessionId) (named : w.session.toNat = k.val) :
    openSelect w t = if (t.session k).state = .free then .ok k else .error .sessionTaken := by
  rw [openSelect, (sessionOf_eq_some_iff w.session k).mpr named]

theorem sessionOf_any : sessionOf 255 = none := rfl

theorem openSelect_of_any (w : JobRecord) (t : State) (any : w.session = 255) :
    openSelect w t =
      match allSessions.find? (fun k => decide ((t.session k).state = .free)) with
      | some k => .ok k
      | none => .error .noSession := by
  rw [openSelect, any, sessionOf_any] <;> rfl

theorem openSelect_of_selects (w : JobRecord) (t : State) (k : SessionId) (selects : Selects w t k) :
    openSelect w t = .ok k := by
  obtain ⟨free, named | ⟨any, lowest⟩⟩ := selects
  · rw [openSelect_of_named w t k named, if_pos free]
  · have found : allSessions.find? (fun k => decide ((t.session k).state = .free)) = some k :=
      find_lowest_session _ k (decide_eq_true free) fun j lower => decide_eq_false (lowest j lower)
    rw [openSelect_of_any w t any, found]

theorem openSelect_of_full (w : JobRecord) (t : State) (any : w.session = 255) (full : ∀ k, (t.session k).state ≠ .free) :
    openSelect w t = .error .noSession := by
  have none : allSessions.find? (fun k => decide ((t.session k).state = .free)) = none :=
    List.find?_eq_none.mpr fun k _ => by simp [full k]
  rw [openSelect_of_any w t any, none]

/-- A record that names a session, or 255, passes the common validation. -/
theorem openChecked_of_numbered (w : JobRecord) (r : JobRingId) (t : State) (work : r ≠ 0)
    (numbered : (∃ k : SessionId, w.session.toNat = k.val) ∨ w.session = 255) : openChecked w r t = openBody r w t := by
  rw [openChecked, if_neg work]
  refine if_neg fun fails => ?_
  obtain ⟨k, named⟩ | any := numbered
  · rw [(sessionOf_eq_some_iff w.session k).mpr named] at fails
    exact Bool.false_ne_true fails.1
  · exact fails.2 any

theorem Selects.numbered {w : JobRecord} {t : State} {k : SessionId} (selects : Selects w t k) :
    (∃ k : SessionId, w.session.toNat = k.val) ∨ w.session = 255 := by
  obtain ⟨-, named | ⟨any, -⟩⟩ := selects
  · exact .inl ⟨k, named⟩
  · exact .inr any

/-! ### The refusals after the selection (R8) -/

/-- The refusal of the pacer that a setup names. -/
def pacerRefusal (r : JobRingId) (setup : Session) (t : State) : Option (Status × Nat) :=
  match setup.pacer with
  | none => none
  | some p =>
    if (t.session p).state = .free ∨ (t.session p).pacer.isSome = true ∨ Config.maxFollowers ≤ (t.session p).followers.length
    then some (.bound, p.val)
    else if (t.session p).owner ≠ some r then some (.notOwner, p.val)
    else none

/-- The refusal of the lines that a setup claims. -/
def claimRefusal (setup : Session) (t : State) : Option (Status × Nat) :=
  match allOutputs.find? (fun l => setup.claims.getLsbD l.val && (t.output l).owner.isSome) with
  | some l => some (.outputTaken, l.val)
  | none => none

theorem openRefusal_of_bad_ring (r : JobRingId) (w : JobRecord) (setup : Session) (t : State) (bad : 8 ≤ (w.byte 8).toNat) :
    openRefusal r w setup t = some (.badParam, 0) := by
  rw [openRefusal, reportRingOf_eq_none _ bad]

section Ring
variable (r : JobRingId) (w : JobRecord) (setup : Session) (t : State) (q : ReportRingId) (ring : (w.byte 8).toNat = q.val)
include ring

theorem openRefusal_of_closed_ring (closed : (t.reportRing q).state ≠ .opened) :
    openRefusal r w setup t = some (.noRing, 0) := by
  rw [openRefusal, (reportRingOf_eq_some_iff _ q).mpr ring]
  exact if_pos closed

theorem openRefusal_of_ring (isOpen : (t.reportRing q).state = .opened) :
    openRefusal r w setup t =
      match pacerRefusal r setup t with
      | some x => some x
      | none => claimRefusal setup t := by
  rw [openRefusal, (reportRingOf_eq_some_iff _ q).mpr ring]
  refine (if_neg (not_not.mpr isOpen)).trans ?_
  rfl

end Ring

theorem pacerUnfit_iff (t : State) (p : SessionId) :
    ((t.session p).state = .free ∨ (t.session p).pacer.isSome = true ∨ Config.maxFollowers ≤ (t.session p).followers.length) ↔
      PacerUnfit t p := by
  rw [PacerUnfit, Option.isSome_iff_ne_none]
  rfl

section Pacer
variable (r : JobRingId) (setup : Session) (t : State)

theorem pacerRefusal_of_unfit (p : SessionId) (paced : setup.pacer = some p) (unfit : PacerUnfit t p) :
    pacerRefusal r setup t = some (.bound, p.val) := by
  rw [pacerRefusal, paced]
  exact if_pos ((pacerUnfit_iff t p).mpr unfit)

theorem pacerRefusal_of_other_owner (p : SessionId) (paced : setup.pacer = some p) (fit : ¬PacerUnfit t p)
    (other : (t.session p).owner ≠ some r) : pacerRefusal r setup t = some (.notOwner, p.val) := by
  rw [pacerRefusal, paced]
  exact (if_neg (mt (pacerUnfit_iff t p).mp fit)).trans (if_pos other)

theorem pacerRefusal_of_fit (fit : ∀ p, setup.pacer = some p → ¬PacerUnfit t p ∧ (t.session p).owner = some r) :
    pacerRefusal r setup t = none := by
  rw [pacerRefusal]
  cases paced : setup.pacer with
  | none => rfl
  | some p => exact (if_neg (mt (pacerUnfit_iff t p).mp (fit p paced).1)).trans (if_neg (not_not.mpr (fit p paced).2))

end Pacer

theorem claimRefusal_of_taken (setup : Session) (t : State) (l : OutputId) (claimed : setup.claims.getLsbD l.val = true)
    (taken : (t.output l).owner ≠ none)
    (lowest : ∀ m, m < l → setup.claims.getLsbD m.val = true → (t.output m).owner = none) :
    claimRefusal setup t = some (.outputTaken, l.val) := by
  have found : allOutputs.find? (fun l => setup.claims.getLsbD l.val && (t.output l).owner.isSome) = some l := by
    unfold allOutputs
    rw [List.find?_eq_some_iff_getElem]
    refine ⟨by simp [claimed, Option.isSome_iff_ne_none, taken], l.val, by simp, by simp, fun j lower => ?_⟩
    have free := lowest ⟨j, by omega⟩ lower
    simp only [List.getElem_finRange, Fin.cast_mk, Bool.not_and, Bool.or_eq_true, Bool.not_eq_true', Option.isSome_eq_false_iff,
      Option.isNone_iff_eq_none]
    exact or_iff_not_imp_left.mpr fun claimed => free (Bool.eq_true_of_not_eq_false claimed)
  rw [claimRefusal, found]

theorem claimRefusal_of_free (setup : Session) (t : State)
    (free : ∀ l : OutputId, setup.claims.getLsbD l.val = true → (t.output l).owner = none) : claimRefusal setup t = none := by
  have none : allOutputs.find? (fun l => setup.claims.getLsbD l.val && (t.output l).owner.isSome) = none :=
    List.find?_eq_none.mpr fun l _ => by
      rw [Bool.and_eq_true]
      rintro ⟨claimed, taken⟩
      rw [free l claimed] at taken
      exact Bool.false_ne_true taken
  rw [claimRefusal, none]

theorem openSetup_claims (w : JobRecord) (setup : Session) (asked : openSetup w = some setup) : setup.claims = w.byte 23 := by
  obtain ⟨-, -, -, -, -, -, -, -, -, rfl⟩ := (openSetup_eq_some_iff w setup).mp asked
  rfl

/-! ### The body of OPEN -/

section Body
variable (r : JobRingId) (w : JobRecord) (t : State)

theorem openBody_of_selection_refused (status : Status) (fails : openSelect w t = .error status) :
    openBody r w t = reply r w status 0 t := by
  rw [openBody, fails]

theorem openBody_of_bad_setup (k : SessionId) (selected : openSelect w t = .ok k) (bad : openSetup w = none) :
    openBody r w t = reply r w .badParam 0 t := by
  rw [openBody, selected, bad]

theorem openBody_of_refusal (k : SessionId) (setup : Session) (status : Status) (value : Nat) (selected : openSelect w t = .ok k)
    (asked : openSetup w = some setup) (refused : openRefusal r w setup t = some (status, value)) :
    openBody r w t = reply r w status value t := by
  simp only [openBody, selected, asked, refused]

theorem openBody_of_passes (k : SessionId) (setup : Session) (selected : openSelect w t = .ok k)
    (asked : openSetup w = some setup) (passes : openRefusal r w setup t = none) :
    openBody r w t =
      answerNow r w { status := .success, session := toByte k.val, value := toWord k.val, stamp := t.stamp }
        (configure r k w setup t) := by
  simp only [openBody, selected, asked, passes]

end Body

theorem exec_openJob (w : JobRecord) (s : State) (r : JobRingId) (reading : s.readsFor r) :
    exec (.openJob w) s = .next (openChecked w r (recordArrives r s)) :=
  congrArg Host.Outcome.next (withTaken_reading (openChecked w) s r reading)

/-- Settles O16: the refusals of the selection, the setup, the ring, the pacer and the claims. -/
theorem openRefusalsInOrder : Obligations.OpenRefusalsInOrder := by
  unfold Obligations.OpenRefusalsInOrder
  intro w s r reading work t o ring
  have runs : o = .next (openChecked w r t) := exec_openJob w s r reading
  rw [runs]
  clear_value t
  refine ⟨fun k named live => ?_, fun any full => ?_, fun k selects => ?_⟩
  · have fails : openSelect w t = .error .sessionTaken := (openSelect_of_named w t k named).trans (if_neg live)
    rw [openChecked_of_numbered w r t work (.inl ⟨k, named⟩), openBody_of_selection_refused r w t _ fails]
    exact reply_refused r w .sessionTaken 0 t rfl
  · rw [openChecked_of_numbered w r t work (.inr any),
      openBody_of_selection_refused r w t _ (openSelect_of_full w t any full)]
    exact reply_refused r w .noSession 0 t rfl
  · rw [openChecked_of_numbered w r t work selects.numbered]
    have selected := openSelect_of_selects w t k selects
    refine ⟨fun bad => ?_, fun setup asked => ?_⟩
    · rw [openBody_of_bad_setup r w t k selected bad]
      exact reply_refused r w .badParam 0 t rfl
    · have refusal (status : Status) (value : Nat) (class' : status.cls = .refusal)
          (refused : openRefusal r w setup t = some (status, value)) :
          RefusedWith r w.tag status w.session (toWord value) t (.next (openBody r w t)) := by
        rw [openBody_of_refusal r w t k setup status value selected asked refused]
        exact reply_refused r w status value t class'
      refine ⟨fun bad => refusal .badParam 0 rfl (openRefusal_of_bad_ring r w setup t bad), fun q named => ⟨fun closed => ?_,
        fun isOpen => ?_⟩⟩
      · exact refusal .noRing 0 rfl (openRefusal_of_closed_ring r w setup t q named closed)
      · have checks := openRefusal_of_ring r w setup t q named isOpen
        refine ⟨fun p paced unfit => refusal .bound p.val rfl ?_, fun p paced fit other => refusal .notOwner p.val rfl ?_,
          fun l fit claimed taken lowest => refusal .outputTaken l.val rfl ?_⟩
        · rw [checks, pacerRefusal_of_unfit r setup t p paced unfit]
        · rw [checks, pacerRefusal_of_other_owner r setup t p paced fit other]
        · have claims := openSetup_claims w setup asked
          rw [← claims] at claimed lowest
          rw [checks, pacerRefusal_of_fit r setup t fit]
          exact claimRefusal_of_taken setup t l claimed taken lowest

end Sys2Proof.Machine

/-!
PROOFS. The parameters that OPEN accepts, mode by mode (R7, R176), and the entry that it configures (R9, R119).
-/

namespace Sys2Proof.Machine

/-! ### The code tables (R176) -/

theorem modeOf_eq (b : Byte) : modeOf b = [Mode.tally, .quad, .split, .rate, .span, .interval][b.toNat]? := by
  unfold modeOf
  generalize b.toNat = n
  rcases n with _ | _ | _ | _ | _ | _ | n <;> rfl

theorem edgeSelectOf_eq (b : Byte) : edgeSelectOf b = [EdgeSelect.rising, .falling, .both][b.toNat]? := by
  unfold edgeSelectOf
  generalize b.toNat = n
  rcases n with _ | _ | _ | n <;> rfl

theorem resolutionOf_eq (b : Byte) : resolutionOf b = [Resolution.x1, .x2, .x4][b.toNat]? := by
  unfold resolutionOf
  generalize b.toNat = n
  rcases n with _ | _ | _ | n <;> rfl

theorem policyOf_eq (b : Byte) : policyOf b = [StepPolicy.tallyOnly, .fault][b.toNat]? := by
  unfold policyOf
  generalize b.toNat = n
  rcases n with _ | _ | n <;> rfl

theorem tickOf_eq (b : Byte) : tickOf b = [TickRate.ns10, .ns100, .us1, .us10, .us100][b.toNat]? := by
  unfold tickOf
  generalize b.toNat = n
  rcases n with _ | _ | _ | _ | _ | n <;> rfl

theorem windowSourceOf_eq (b : Byte) : windowSourceOf b = [WindowSource.own, .pacer][b.toNat]? := by
  unfold windowSourceOf
  generalize b.toNat = n
  rcases n with _ | _ | n <;> rfl

theorem windowSourceOf_own (b : Byte) : windowSourceOf b = some .own ↔ b.toNat = 0 := by
  rw [windowSourceOf_eq]
  generalize b.toNat = n
  rcases n with _ | _ | n <;> simp

theorem windowSourceOf_pacer (b : Byte) : windowSourceOf b = some .pacer ↔ b.toNat = 1 := by
  rw [windowSourceOf_eq]
  generalize b.toNat = n
  rcases n with _ | _ | n <;> simp

theorem windowLengthOf_eq_some_iff (x : Word32) (n : Nat) :
    windowLengthOf x = some n ↔ x.toNat = n ∧ 1 ≤ n ∧ n ≤ 16777215 := by
  rw [windowLengthOf, Option.ite_none_right_eq_some, Option.some_inj]
  exact ⟨fun ⟨range, same⟩ => ⟨same, same ▸ range⟩, fun ⟨same, range⟩ => ⟨same ▸ range, same⟩⟩

theorem limitOf_eq_some_iff (x : Word32) (n : Nat) : limitOf x = some n ↔ x.toNat = n ∧ 1 ≤ n := by
  rw [limitOf, Option.ite_none_right_eq_some, Option.some_inj]
  exact ⟨fun ⟨range, same⟩ => ⟨same, same ▸ range⟩, fun ⟨same, range⟩ => ⟨same ▸ range, same⟩⟩

/-! ### The setup of each mode (R7) -/

theorem openModeSetup_tally_iff (w : JobRecord) (e : Session) :
    openModeSetup w .tally = some e ↔
      ∃ a sel, lineOf (w.byte 10) = some a ∧ edgeSelectOf (w.byte 13) = some sel ∧
        e = { mode := some .tally, lineA := some a, edgeSelect := some sel } := by
  simp only [openModeSetup, Option.bind_eq_bind, Option.bind_eq_some_iff, Option.some_inj, eq_comm (b := e), exists_and_left]

theorem openModeSetup_quad_iff (w : JobRecord) (e : Session) :
    openModeSetup w .quad = some e ↔
      ∃ a b res pol, lineOf (w.byte 10) = some a ∧ lineOf (w.byte 11) = some b ∧ resolutionOf (w.byte 14) = some res ∧
        policyOf (w.byte 15) = some pol ∧ a ≠ b ∧
        e = { mode := some .quad, lineA := some a, lineB := some b, resolution := some res, policy := some pol } := by
  simp only [openModeSetup, Option.bind_eq_bind, Option.bind_eq_some_iff, Option.ite_none_left_eq_some, Option.some_inj,
    eq_comm (b := e), exists_and_left, ne_eq]

theorem openModeSetup_split_iff (w : JobRecord) (e : Session) :
    openModeSetup w .split = some e ↔
      ∃ a b, lineOf (w.byte 10) = some a ∧ lineOf (w.byte 11) = some b ∧ a ≠ b ∧
        e = { mode := some .split, lineA := some a, lineB := some b } := by
  simp only [openModeSetup, Option.bind_eq_bind, Option.bind_eq_some_iff, Option.ite_none_left_eq_some, Option.some_inj,
    eq_comm (b := e), exists_and_left, ne_eq]

theorem openModeSetup_span_iff (w : JobRecord) (e : Session) :
    openModeSetup w .span = some e ↔
      ∃ a t, lineOf (w.byte 10) = some a ∧ tickOf (w.byte 20) = some t ∧
        e = { mode := some .span, lineA := some a, tick := some t } := by
  simp only [openModeSetup, Option.bind_eq_bind, Option.bind_eq_some_iff, Option.some_inj, eq_comm (b := e), exists_and_left]

theorem openModeSetup_rate_iff (w : JobRecord) (e : Session) :
    openModeSetup w .rate = some e ↔
      ∃ a sel, lineOf (w.byte 10) = some a ∧ edgeSelectOf (w.byte 13) = some sel ∧
        ((∃ t len, windowSourceOf (w.byte 21) = some .own ∧ tickOf (w.byte 20) = some t ∧
            windowLengthOf (w.word 24) = some len ∧
            e = { mode := some .rate, lineA := some a, edgeSelect := some sel, tick := some t,
                  windowSource := some .own, windowLength := some len }) ∨
          ∃ p, windowSourceOf (w.byte 21) = some .pacer ∧ sessionOf (w.byte 22) = some p ∧
            e = { mode := some .rate, lineA := some a, edgeSelect := some sel, windowSource := some .pacer,
                  pacer := some p }) := by
  simp only [openModeSetup, Option.bind_eq_bind, Option.bind_eq_some_iff]
  constructor
  · rintro ⟨a, line, sel, select, source, known, rest⟩
    refine ⟨a, sel, line, select, ?_⟩
    cases source with
    | own =>
      simp only [Option.bind_eq_some_iff, Option.some_inj] at rest
      obtain ⟨t, tick, len, length, rfl⟩ := rest
      exact .inl ⟨t, len, known, tick, length, rfl⟩
    | pacer =>
      simp only [Option.bind_eq_some_iff, Option.some_inj] at rest
      obtain ⟨p, paced, rfl⟩ := rest
      exact .inr ⟨p, known, paced, rfl⟩
  · rintro ⟨a, sel, line, select, ⟨t, len, known, tick, length, rfl⟩ | ⟨p, known, paced, rfl⟩⟩
    · exact ⟨a, line, sel, select, .own, known, by simp [tick, length]⟩
    · exact ⟨a, line, sel, select, .pacer, known, by simp [paced]⟩

theorem openModeSetup_interval_iff (w : JobRecord) (e : Session) :
    openModeSetup w .interval = some e ↔
      ∃ t, tickOf (w.byte 20) = some t ∧
        ((∃ len, windowSourceOf (w.byte 21) = some .own ∧ windowLengthOf (w.word 24) = some len ∧
            len ≤ (w.word 16).toNat ∧
            e = { mode := some .interval, tick := some t, windowSource := some .own, windowLength := some len,
                  reportWindows := w.flag 1 }) ∨
          ∃ p, windowSourceOf (w.byte 21) = some .pacer ∧ sessionOf (w.byte 22) = some p ∧
            e = { mode := some .interval, tick := some t, windowSource := some .pacer, pacer := some p }) := by
  simp only [openModeSetup, Option.bind_eq_bind, Option.bind_eq_some_iff]
  constructor
  · rintro ⟨t, tick, source, known, rest⟩
    refine ⟨t, tick, ?_⟩
    cases source with
    | own =>
      simp only [Option.bind_eq_some_iff, Option.ite_none_left_eq_some, Option.some_inj, not_lt] at rest
      obtain ⟨len, length, small, rfl⟩ := rest
      exact .inl ⟨len, known, length, small, rfl⟩
    | pacer =>
      simp only [Option.bind_eq_some_iff, Option.some_inj] at rest
      obtain ⟨p, paced, rfl⟩ := rest
      exact .inr ⟨p, known, paced, rfl⟩
  · rintro ⟨t, tick, ⟨len, known, length, small, rfl⟩ | ⟨p, known, paced, rfl⟩⟩
    · exact ⟨t, tick, .own, known, by simp [length, Nat.not_lt.mpr small]⟩
    · exact ⟨t, tick, .pacer, known, by simp [paced]⟩

/-- The code of each mode (R176). -/
theorem modeOf_code (b : Byte) (mode : Mode) (known : modeOf b = some mode) :
    b.toNat = match mode with
      | .tally => 0
      | .quad => 1
      | .split => 2
      | .rate => 3
      | .span => 4
      | .interval => 5 := by
  rw [modeOf_eq] at known
  generalize b.toNat = n at *
  rcases n with _ | _ | _ | _ | _ | _ | n
  case succ.succ.succ.succ.succ.succ => cases known
  all_goals
    cases known
    rfl

/-- The parameters of its mode that an OPEN record asks for (R7, R176). -/
def ModeAsked (w : JobRecord) (e : Session) : Prop :=
  let mode := (w.byte 9).toNat
  let windowed := mode = 3 ∨ mode = 5
  let own := windowed ∧ w.byte 21 = 0
  let paced := windowed ∧ w.byte 21 = 1
  e.mode = [Mode.tally, .quad, .split, .rate, .span, .interval][mode]? ∧
    e.lineA.map Fin.val = (if mode = 5 then none else some (w.byte 10).toNat) ∧
    e.lineB.map Fin.val = (if mode = 1 ∨ mode = 2 then some (w.byte 11).toNat else none) ∧
    e.edgeSelect = (if mode = 0 ∨ mode = 3 then [EdgeSelect.rising, .falling, .both][(w.byte 13).toNat]? else none) ∧
    e.resolution = (if mode = 1 then [Resolution.x1, .x2, .x4][(w.byte 14).toNat]? else none) ∧
    e.policy = (if mode = 1 then [StepPolicy.tallyOnly, .fault][(w.byte 15).toNat]? else none) ∧
    e.tick =
      (if mode = 4 ∨ mode = 5 ∨ own then [TickRate.ns10, .ns100, .us1, .us10, .us100][(w.byte 20).toNat]? else none) ∧
    e.windowSource = (if own then some .own else if paced then some .pacer else none) ∧
    e.windowLength = (if own then some (w.word 24).toNat else none) ∧
    e.pacer.map Fin.val = (if paced then some (w.byte 22).toNat else none) ∧
    e.reportWindows = (decide (mode = 5 ∧ w.byte 21 = 0) && w.flag 1)

theorem openModeSetup_asked (w : JobRecord) (mode : Mode) (e : Session) (known : modeOf (w.byte 9) = some mode)
    (asked : openModeSetup w mode = some e) : ModeAsked w e := by
  have code := modeOf_code _ _ known
  have line {b : Byte} {l : LineId} (h : lineOf b = some l) : l.val = b.toNat := ((lineOf_eq_some_iff b l).mp h).symm
  have session {b : Byte} {k : SessionId} (h : sessionOf b = some k) : k.val = b.toNat :=
    ((sessionOf_eq_some_iff b k).mp h).symm
  have ownSource (h : windowSourceOf (w.byte 21) = some .own) : w.byte 21 = 0 :=
    BitVec.eq_of_toNat_eq ((windowSourceOf_own _).mp h)
  have pacedSource (h : windowSourceOf (w.byte 21) = some .pacer) : w.byte 21 = 1 :=
    BitVec.eq_of_toNat_eq ((windowSourceOf_pacer _).mp h)
  unfold ModeAsked
  cases mode with
  | tally =>
    obtain ⟨a, sel, lineA, select, rfl⟩ := (openModeSetup_tally_iff w e).mp asked
    simp [code, line lineA, ← edgeSelectOf_eq, select]
  | quad =>
    obtain ⟨a, b, res, pol, lineA, lineB, resolution, policy, -, rfl⟩ := (openModeSetup_quad_iff w e).mp asked
    simp [code, line lineA, line lineB, ← resolutionOf_eq, ← policyOf_eq, resolution, policy]
  | split =>
    obtain ⟨a, b, lineA, lineB, -, rfl⟩ := (openModeSetup_split_iff w e).mp asked
    simp [code, line lineA, line lineB]
  | rate =>
    obtain ⟨a, sel, lineA, select, ⟨t, len, source, tick, length, rfl⟩ | ⟨p, source, pacer, rfl⟩⟩ :=
      (openModeSetup_rate_iff w e).mp asked
    · have length := (windowLengthOf_eq_some_iff _ _).mp length
      simp [code, line lineA, ← edgeSelectOf_eq, ← tickOf_eq, select, ownSource source, tick, length.1]
    · simp [code, line lineA, ← edgeSelectOf_eq, select, pacedSource source, session pacer]
  | span =>
    obtain ⟨a, t, lineA, tick, rfl⟩ := (openModeSetup_span_iff w e).mp asked
    simp [code, line lineA, ← tickOf_eq, tick]
  | interval =>
    obtain ⟨t, tick, ⟨len, source, length, -, rfl⟩ | ⟨p, source, pacer, rfl⟩⟩ := (openModeSetup_interval_iff w e).mp asked
    · have length := (windowLengthOf_eq_some_iff _ _).mp length
      simp [code, ← tickOf_eq, tick, ownSource source, length.1]
    · simp [code, ← tickOf_eq, tick, pacedSource source, session pacer]

/-- The inhibit line that is asked for: 255 is absent. -/
theorem inhibitOf_eq_some_iff (b : Byte) (setup : Session) (l : Option LineId) :
    inhibitOf b setup = some l ↔
      (b = 255 ∧ l = none) ∨
        (b ≠ 255 ∧ ∃ m, b.toNat = m.val ∧ setup.lineA ≠ some m ∧ setup.lineB ≠ some m ∧ l = some m) := by
  unfold inhibitOf
  by_cases absent : b = 255
  · simp [absent, eq_comm]
  · rw [if_neg absent]
    simp only [absent, false_and, ne_eq, not_false_eq_true, true_and, false_or]
    cases known : lineOf b with
    | none =>
      simp only [reduceCtorEq, false_iff, not_exists, not_and]
      intro m same
      rw [(lineOf_eq_some_iff b m).mpr same] at known
      cases known
    | some m =>
      have same := (lineOf_eq_some_iff b m).mp known
      simp only [Option.ite_none_left_eq_some, not_or, Option.some_inj, same, and_assoc]
      constructor
      · rintro ⟨notA, notB, rfl⟩
        exact ⟨m, rfl, notA, notB, rfl⟩
      · rintro ⟨m', same', notA, notB, rfl⟩
        obtain rfl : m = m' := Fin.ext same'
        exact ⟨notA, notB, rfl⟩

/-- The setup is the one that the record asks for. -/
theorem openSetup_asked (w : JobRecord) (e : Session) (asked : openSetup w = some e) : AskedSetup w e := by
  obtain ⟨mode, limit, setup, inhibit, known, limited, modal, inhibited, -, rfl⟩ := (openSetup_eq_some_iff w e).mp asked
  have fresh := openModeSetup_fresh w mode setup modal
  obtain ⟨hmode, lineA, lineB, select, resolution, policy, tick, source, length, pacer, windows⟩ :=
    openModeSetup_asked w mode setup known modal
  refine ⟨?_, hmode, lineA, lineB, ?_, select, resolution, policy, ?_, tick, source, length, pacer, windows, rfl, rfl⟩
  · unfold Session.Fresh at fresh
    rw [fresh]
  · rcases (inhibitOf_eq_some_iff _ _ _).mp inhibited with ⟨absent, rfl⟩ | ⟨present, m, same, -, -, rfl⟩
    · exact (if_pos absent).symm
    · rw [if_neg present, same]
      rfl
  · rw [((limitOf_eq_some_iff _ _).mp limited).1]

/-! ### The parameters that are accepted (R7) -/

theorem getElem?_exists {α : Type} (l : List α) (n : Nat) : (∃ x, l[n]? = some x) ↔ n < l.length := by
  rw [← Option.isSome_iff_exists, Option.isSome_iff_ne_none, ne_eq, List.getElem?_eq_none_iff, not_le]

theorem lineOf_exists (b : Byte) : (∃ l, lineOf b = some l) ↔ b.toNat < 16 := by
  simp only [lineOf_eq_some_iff]
  exact ⟨fun ⟨l, same⟩ => same ▸ l.isLt, fun small => ⟨⟨_, small⟩, rfl⟩⟩

theorem sessionOf_exists (b : Byte) : (∃ k, sessionOf b = some k) ↔ b.toNat < 32 := by
  simp only [sessionOf_eq_some_iff]
  exact ⟨fun ⟨k, same⟩ => same ▸ k.isLt, fun small => ⟨⟨_, small⟩, rfl⟩⟩

theorem windowLengthOf_exists (x : Word32) : (∃ n, windowLengthOf x = some n) ↔ 1 ≤ x.toNat ∧ x.toNat ≤ 16777215 := by
  simp only [windowLengthOf_eq_some_iff, exists_eq_left']

/-- Two different lines. -/
theorem lines_exist (x y : Byte) :
    (∃ a b, lineOf x = some a ∧ lineOf y = some b ∧ a ≠ b) ↔ x.toNat < 16 ∧ y.toNat < 16 ∧ y.toNat ≠ x.toNat := by
  simp only [lineOf_eq_some_iff]
  constructor
  · rintro ⟨a, b, first, second, other⟩
    exact ⟨first ▸ a.isLt, second ▸ b.isLt, fun same => other (Fin.ext (first ▸ second ▸ same.symm))⟩
  · rintro ⟨first, second, other⟩
    exact ⟨⟨_, first⟩, ⟨_, second⟩, rfl, rfl, fun same => other (Fin.mk.inj same).symm⟩

/-- The ranges of the parameters that a mode requires. -/
def ModeAccepts (w : JobRecord) : Mode → Prop
  | .tally => (w.byte 10).toNat < 16 ∧ (w.byte 13).toNat ≤ 2
  | .quad =>
    ((w.byte 10).toNat < 16 ∧ (w.byte 11).toNat < 16 ∧ (w.byte 11).toNat ≠ (w.byte 10).toNat) ∧
      (w.byte 14).toNat ≤ 2 ∧ (w.byte 15).toNat ≤ 1
  | .split => (w.byte 10).toNat < 16 ∧ (w.byte 11).toNat < 16 ∧ (w.byte 11).toNat ≠ (w.byte 10).toNat
  | .rate =>
    (w.byte 10).toNat < 16 ∧ (w.byte 13).toNat ≤ 2 ∧
      (((w.byte 21).toNat = 0 ∧ (w.byte 20).toNat ≤ 4 ∧ 1 ≤ (w.word 24).toNat ∧ (w.word 24).toNat ≤ 16777215) ∨
        ((w.byte 21).toNat = 1 ∧ (w.byte 22).toNat < 32))
  | .span => (w.byte 10).toNat < 16 ∧ (w.byte 20).toNat ≤ 4
  | .interval =>
    (w.byte 20).toNat ≤ 4 ∧
      (((w.byte 21).toNat = 0 ∧ (1 ≤ (w.word 24).toNat ∧ (w.word 24).toNat ≤ 16777215) ∧
          (w.word 24).toNat ≤ (w.word 16).toNat) ∨
        ((w.byte 21).toNat = 1 ∧ (w.byte 22).toNat < 32))

theorem openModeSetup_exists (w : JobRecord) (mode : Mode) : (∃ e, openModeSetup w mode = some e) ↔ ModeAccepts w mode := by
  have select : (∃ x, edgeSelectOf (w.byte 13) = some x) ↔ (w.byte 13).toNat ≤ 2 := by
    simp only [edgeSelectOf_eq, getElem?_exists, List.length_cons, List.length_nil, Nat.lt_succ_iff]
  have resolution : (∃ x, resolutionOf (w.byte 14) = some x) ↔ (w.byte 14).toNat ≤ 2 := by
    simp only [resolutionOf_eq, getElem?_exists, List.length_cons, List.length_nil, Nat.lt_succ_iff]
  have policy : (∃ x, policyOf (w.byte 15) = some x) ↔ (w.byte 15).toNat ≤ 1 := by
    simp only [policyOf_eq, getElem?_exists, List.length_cons, List.length_nil, Nat.lt_succ_iff]
  have tick : (∃ x, tickOf (w.byte 20) = some x) ↔ (w.byte 20).toNat ≤ 4 := by
    simp only [tickOf_eq, getElem?_exists, List.length_cons, List.length_nil, Nat.lt_succ_iff]
  cases mode with
  | tally =>
    rw [ModeAccepts, ← lineOf_exists, ← select]
    simp only [openModeSetup_tally_iff]
    constructor
    · rintro ⟨_, a, sel, ha, hsel, rfl⟩
      exact ⟨⟨a, ha⟩, sel, hsel⟩
    · rintro ⟨⟨a, ha⟩, sel, hsel⟩
      exact ⟨_, a, sel, ha, hsel, rfl⟩
  | quad =>
    rw [ModeAccepts, ← lines_exist, ← resolution, ← policy]
    simp only [openModeSetup_quad_iff]
    constructor
    · rintro ⟨_, a, b, res, pol, ha, hb, hres, hpol, other, rfl⟩
      exact ⟨⟨a, b, ha, hb, other⟩, ⟨res, hres⟩, pol, hpol⟩
    · rintro ⟨⟨a, b, ha, hb, other⟩, ⟨res, hres⟩, pol, hpol⟩
      exact ⟨_, a, b, res, pol, ha, hb, hres, hpol, other, rfl⟩
  | split =>
    rw [ModeAccepts, ← lines_exist]
    simp only [openModeSetup_split_iff]
    constructor
    · rintro ⟨_, a, b, ha, hb, other, rfl⟩
      exact ⟨a, b, ha, hb, other⟩
    · rintro ⟨a, b, ha, hb, other⟩
      exact ⟨_, a, b, ha, hb, other, rfl⟩
  | rate =>
    rw [ModeAccepts, ← lineOf_exists, ← select, ← tick, ← windowLengthOf_exists, ← sessionOf_exists, ← windowSourceOf_own,
      ← windowSourceOf_pacer]
    simp only [openModeSetup_rate_iff]
    constructor
    · rintro ⟨_, a, sel, ha, hsel, ⟨t, len, own, ht, hlen, rfl⟩ | ⟨p, paced, hp, rfl⟩⟩
      · exact ⟨⟨a, ha⟩, ⟨sel, hsel⟩, .inl ⟨own, ⟨t, ht⟩, len, hlen⟩⟩
      · exact ⟨⟨a, ha⟩, ⟨sel, hsel⟩, .inr ⟨paced, p, hp⟩⟩
    · rintro ⟨⟨a, ha⟩, ⟨sel, hsel⟩, ⟨own, ⟨t, ht⟩, len, hlen⟩ | ⟨paced, p, hp⟩⟩
      · exact ⟨_, a, sel, ha, hsel, .inl ⟨t, len, own, ht, hlen, rfl⟩⟩
      · exact ⟨_, a, sel, ha, hsel, .inr ⟨p, paced, hp, rfl⟩⟩
  | span =>
    rw [ModeAccepts, ← lineOf_exists, ← tick]
    simp only [openModeSetup_span_iff]
    constructor
    · rintro ⟨_, a, t, ha, ht, rfl⟩
      exact ⟨⟨a, ha⟩, t, ht⟩
    · rintro ⟨⟨a, ha⟩, t, ht⟩
      exact ⟨_, a, t, ha, ht, rfl⟩
  | interval =>
    rw [ModeAccepts, ← tick, ← sessionOf_exists, ← windowSourceOf_own, ← windowSourceOf_pacer]
    simp only [openModeSetup_interval_iff, windowLengthOf_eq_some_iff]
    constructor
    · rintro ⟨_, t, ht, ⟨len, own, ⟨rfl, range⟩, small, rfl⟩ | ⟨p, paced, hp, rfl⟩⟩
      · exact ⟨⟨t, ht⟩, .inl ⟨own, range, small⟩⟩
      · exact ⟨⟨t, ht⟩, .inr ⟨paced, p, hp⟩⟩
    · rintro ⟨⟨t, ht⟩, ⟨own, range, small⟩ | ⟨paced, p, hp⟩⟩
      · exact ⟨_, t, ht, .inl ⟨_, own, ⟨rfl, range⟩, small, rfl⟩⟩
      · exact ⟨_, t, ht, .inr ⟨p, paced, hp, rfl⟩⟩

/-- An inhibit line is a line that is neither line of the session (R7). -/
theorem inhibitOf_exists (w : JobRecord) (setup : Session) (asked : ModeAsked w setup) :
    (∃ l, inhibitOf (w.byte 12) setup = some l) ↔
      ((w.byte 12).toNat ≠ 255 → (w.byte 12).toNat < 16 ∧
        ((w.byte 9).toNat ≠ 5 → (w.byte 12).toNat ≠ (w.byte 10).toNat) ∧
        ((w.byte 9).toNat = 1 ∨ (w.byte 9).toNat = 2 → (w.byte 12).toNat ≠ (w.byte 11).toNat)) := by
  obtain ⟨-, lineA, lineB, -⟩ := asked
  have absent : w.byte 12 = 255 ↔ (w.byte 12).toNat = 255 := ⟨fun h => by rw [h]; rfl, fun h => BitVec.eq_of_toNat_eq (h.trans rfl)⟩
  have isLine (o : Option LineId) (m : LineId) : o = some m ↔ o.map Fin.val = some m.val := by
    cases o with
    | none => simp
    | some x => simp [Fin.ext_iff]
  simp only [inhibitOf_eq_some_iff, absent, isLine setup.lineA, isLine setup.lineB, ne_eq, lineA, lineB]
  constructor
  · rintro ⟨l, ⟨is255, -⟩ | ⟨-, m, same, notA, notB, -⟩⟩ present
    · exact absurd is255 present
    · rw [same]
      refine ⟨m.isLt, fun hasA equal => notA ?_, fun hasB equal => notB ?_⟩
      · rw [if_neg hasA, equal]
      · rw [if_pos hasB, equal]
  · intro range
    by_cases is255 : (w.byte 12).toNat = 255
    · exact ⟨none, .inl ⟨is255, rfl⟩⟩
    · obtain ⟨small, notA, notB⟩ := range is255
      refine ⟨some ⟨_, small⟩, .inr ⟨is255, ⟨_, small⟩, rfl, fun equal => ?_, fun equal => ?_, rfl⟩⟩
      · split at equal
        · cases equal
        next hasA => exact notA hasA (Option.some.inj equal).symm
      · split at equal
        next hasB => exact notB hasB (Option.some.inj equal).symm
        · cases equal

/-- An OPEN record is accepted by its mode, its limit, its mode's parameters, its inhibit line and its pulse width. -/
theorem openSetup_isSome_iff (w : JobRecord) :
    (openSetup w).isSome = true ↔
      (∃ mode, modeOf (w.byte 9) = some mode ∧ ModeAccepts w mode) ∧ 1 ≤ (w.word 16).toNat ∧
        ((w.byte 12).toNat ≠ 255 → (w.byte 12).toNat < 16 ∧
          ((w.byte 9).toNat ≠ 5 → (w.byte 12).toNat ≠ (w.byte 10).toNat) ∧
          ((w.byte 9).toNat = 1 ∨ (w.byte 9).toNat = 2 → (w.byte 12).toNat ≠ (w.byte 11).toNat)) ∧
        (w.byte 23 ≠ 0 → (w.half 28).toNat ≠ 0) := by
  have noWidth : w.half 28 = 0 ↔ (w.half 28).toNat = 0 := ⟨fun h => by rw [h]; rfl, fun h => BitVec.eq_of_toNat_eq (h.trans rfl)⟩
  rw [Option.isSome_iff_exists]
  simp only [openSetup_eq_some_iff, not_and, noWidth]
  constructor
  · rintro ⟨_, mode, limit, setup, inhibit, known, limited, modal, inhibited, width, rfl⟩
    obtain ⟨rfl, positive⟩ := (limitOf_eq_some_iff _ _).mp limited
    exact ⟨⟨mode, known, (openModeSetup_exists w mode).mp ⟨setup, modal⟩⟩, positive,
      (inhibitOf_exists w setup (openModeSetup_asked w mode setup known modal)).mp ⟨inhibit, inhibited⟩, width⟩
  · rintro ⟨⟨mode, known, accepts⟩, positive, inhibits, width⟩
    obtain ⟨setup, modal⟩ := (openModeSetup_exists w mode).mpr accepts
    obtain ⟨inhibit, inhibited⟩ :=
      (inhibitOf_exists w setup (openModeSetup_asked w mode setup known modal)).mpr inhibits
    exact ⟨_, mode, _, setup, inhibit, known, (limitOf_eq_some_iff _ _).mpr ⟨rfl, positive⟩, modal, inhibited, width, rfl⟩

/-- The ranges of the modes, by their codes. -/
theorem modeAccepts_exists (w : JobRecord) :
    let mode := (w.byte 9).toNat
    let a := (w.byte 10).toNat
    let b := (w.byte 11).toNat
    let source := (w.byte 21).toNat
    let length := (w.word 24).toNat
    (∃ mode, modeOf (w.byte 9) = some mode ∧ ModeAccepts w mode) ↔
      mode ≤ 5 ∧ (mode ≠ 5 → a < 16) ∧ (mode = 1 ∨ mode = 2 → b < 16 ∧ b ≠ a) ∧
        (mode = 0 ∨ mode = 3 → (w.byte 13).toNat ≤ 2) ∧
        (mode = 1 → (w.byte 14).toNat ≤ 2 ∧ (w.byte 15).toNat ≤ 1) ∧
        (mode = 4 ∨ mode = 5 ∨ (mode = 3 ∧ source = 0) → (w.byte 20).toNat ≤ 4) ∧
        (mode = 3 ∨ mode = 5 → source ≤ 1 ∧ (source = 0 → 1 ≤ length ∧ length ≤ 16777215) ∧
          (source = 1 → (w.byte 22).toNat < 32)) ∧
        (mode = 5 → source = 0 → length ≤ (w.word 16).toNat) := by
  simp only [modeOf_eq]
  generalize (w.byte 9).toNat = n
  rcases n with _ | _ | _ | _ | _ | _ | n
  case succ.succ.succ.succ.succ.succ => simp
  all_goals simp [ModeAccepts] <;> omega

/-- Settles O15: the ranges, from the setup of each mode. -/
theorem openParameterRanges : Obligations.OpenParameterRanges := by
  unfold Obligations.OpenParameterRanges
  intro w mode a b inhibit source limit length
  have modes := modeAccepts_exists w
  dsimp only at modes
  rw [openSetup_isSome_iff, modes]
  constructor
  · rintro ⟨⟨known, lineA, lineB, select, steps, tick, source, small⟩, limited, inhibited, width⟩
    exact ⟨known, limited, lineA, lineB, select, steps, tick, source, small, inhibited, width⟩
  · rintro ⟨known, limited, lineA, lineB, select, steps, tick, source, small, inhibited, width⟩
    exact ⟨⟨known, lineA, lineB, select, steps, tick, source, small⟩, limited, inhibited, width⟩

/-! ### The configuration (R9, R119) -/

theorem claimOutputs_output (k : SessionId) (claims : BitVec 8) (l : List OutputId) (s : State) (m : OutputId)
    (distinct : l.Nodup) :
    (claimOutputs k claims l s).output m =
      if m ∈ l ∧ claims.getLsbD m.val = true then { owner := some k, level := false, timer := none } else s.output m := by
  induction l generalizing s with
  | nil => simp [claimOutputs]
  | cons o rest ih =>
    obtain ⟨notLater, distinct⟩ := List.nodup_cons.mp distinct
    rw [claimOutputs, ih _ distinct]
    by_cases here : m = o
    · subst here
      rw [if_neg fun h => notLater h.1]
      by_cases claimed : claims.getLsbD m.val = true
      · rw [if_pos claimed, if_pos ⟨List.mem_cons_self, claimed⟩, State.output_setOutput, if_pos rfl]
      · rw [if_neg claimed, if_neg fun h => claimed h.2]
    · have kept : (if claims.getLsbD o.val = true then
          s.setOutput o { owner := some k, level := false, timer := none } else s).output m = s.output m := by
        split
        · rw [State.output_setOutput, if_neg here]
        · rfl
      rw [kept]
      simp only [List.mem_cons, here, false_or]

theorem configure_output (r : JobRingId) (k : SessionId) (w : JobRecord) (setup : Session) (t : State) (l : OutputId) :
    (configure r k w setup t).output l =
      if setup.claims.getLsbD l.val = true then { owner := some k, level := false, timer := none } else t.output l := by
  have kept : (joinPacerList k setup.pacer (t.setSession k (openedSession r w setup t))).output l = t.output l := by
    unfold joinPacerList
    split <;> rfl
  have every : l ∈ allOutputs := List.mem_finRange l
  rw [configure, claimOutputs_output k setup.claims allOutputs _ l (List.nodup_finRange 8), kept]
  simp only [every, true_and]

/-- The configured entry. -/
theorem openedSession_eq (r : JobRingId) (w : JobRecord) (setup : Session) (t : State) (q : ReportRingId)
    (ring : (w.byte 8).toNat = q.val) :
    openedSession r w setup t =
      { setup with
        state := .idle, owner := some r, reportRing := some q
        hold := { inhibit := match setup.inhibitLine with | none => false | some l => t.level l }
        pairRef :=
          match setup.mode, setup.lineA, setup.lineB with
          | some .quad, some a, some b => some (t.level a, t.level b)
          | _, _, _ => none
        outputsEnabled := w.flag 0 } := by
  have pair : (if setup.mode = some .quad then pairLevels setup t else none) =
      match setup.mode, setup.lineA, setup.lineB with
      | some .quad, some a, some b => some (t.level a, t.level b)
      | _, _, _ => none := by
    unfold pairLevels
    rcases setup.mode with _ | _ | _ | _ | _ | _ | _
    case some.quad => cases setup.lineA <;> cases setup.lineB <;> rfl
    all_goals rfl
  have inhibit : setup.inhibitLine.any t.level = match setup.inhibitLine with | none => false | some l => t.level l := by
    cases setup.inhibitLine <;> rfl
  rw [openedSession, (reportRingOf_eq_some_iff _ q).mpr ring, pair, inhibit]

/-- Settles O17: the configured state, answered with SUCCESS. -/
theorem openConfiguresTheSession : Obligations.OpenConfiguresTheSession := by
  unfold Obligations.OpenConfiguresTheSession
  intro w s r k q setup reading work t selects asked ring isOpen fit unclaimed
  have runs : exec (.openJob w) s = .next (openChecked w r t) := exec_openJob w s r reading
  rw [runs]
  clear_value t
  have claims := openSetup_claims w setup asked
  have passes : openRefusal r w setup t = none := by
    rw [openRefusal_of_ring r w setup t q ring isOpen, pacerRefusal_of_fit r setup t fit]
    exact claimRefusal_of_free setup t (claims ▸ unclaimed)
  rw [openChecked_of_numbered w r t work selects.numbered,
    openBody_of_passes r w t k setup (openSelect_of_selects w t k selects) asked passes]
  have frame := configure_frame r k w setup t
  have sessions := configure_session r k w setup t (openRefusal_other r w setup t passes k selects.1)
  have outputs := configure_output r k w setup t
  rw [claims] at outputs
  generalize configure r k w setup t = v at frame sessions outputs ⊢
  have stamp : v.stamp = t.stamp := by rw [frame]
  have answered := answerNow_answered r w .success (toByte k.val) (toWord k.val) {} v
  rw [stamp] at answered
  have rings : OnlyRings v (answerNow r w { status := .success, session := toByte k.val, value := toWord k.val, stamp := t.stamp } v) :=
    answer_onlyRings _ _ _ _ _
  generalize answerNow r w { status := .success, session := toByte k.val, value := toWord k.val, stamp := t.stamp } v = u
    at answered rings ⊢
  have entry (j : SessionId) : u.session j = v.session j := by rw [rings]; rfl
  refine ⟨u, rfl, ?_, ?_, fun j other => ?_, fun l => ?_, openSetup_asked w setup asked, ?_⟩
  · rw [rings, frame]
  · exact (entry k).trans ((sessions k).trans ((if_pos rfl).trans (openedSession_eq r w setup t q ring)))
  · rw [entry, sessions, if_neg other]
  · rw [rings]
    exact outputs l
  · rw [frame] at answered
    exact answered

end Sys2Proof.Machine

/-!
PROOFS. The tables over every event: FREE entries stay empty, the pacing relation stays sound with the marks still out, records stay
with sessions that report to their ring, and live fetches with sessions that are not FREE (R1, R18, R58, R88, R149).
-/

namespace Sys2Proof.Machine

/-! ### The records that a ring holds (R149) -/

/-- The ring holds a record of the session, parked or not yet written. -/
def ReportRing.Holds (q : ReportRing) (k : SessionId) : Prop :=
  (∃ rec ∈ q.store, rec.sessionOf = some k) ∨ ∃ p ∈ q.unwritten, p.owner = some k

theorem ReportRing.holds_default (k : SessionId) : ¬ReportRing.Holds {} k := by
  rintro (⟨rec, parked, -⟩ | ⟨p, placed, -⟩)
  · cases parked
  · cases placed

/-- A ring with fewer records holds none of another session. -/
theorem ReportRing.Holds.of_subset {q x : ReportRing} {k : SessionId} (holds : x.Holds k) (store : x.store ⊆ q.store)
    (unwritten : x.unwritten ⊆ q.unwritten) : q.Holds k := by
  rcases holds with ⟨rec, parked, named⟩ | ⟨p, placed, owner⟩
  · exact .inl ⟨rec, store parked, named⟩
  · exact .inr ⟨p, unwritten placed, owner⟩

theorem ReportRing.Holds.place {q : ReportRing} {rec : ReportRecord} {k : SessionId} (holds : (q.place rec).Holds k) :
    q.Holds k ∨ rec.sessionOf = some k := by
  rcases holds with parked | ⟨p, placed, owner⟩
  · exact .inl (.inl parked)
  · simp only [ReportRing.place, List.mem_append, List.mem_singleton] at placed
    rcases placed with before | rfl
    · exact .inl (.inr ⟨p, before, owner⟩)
    · exact .inr owner

theorem ReportRing.Holds.placeAll {q : ReportRing} {l : List ReportRecord} {k : SessionId} (holds : (q.placeAll l).Holds k) :
    q.Holds k ∨ ∃ rec ∈ l, rec.sessionOf = some k := by
  induction l generalizing q with
  | nil => exact .inl holds
  | cons rec rest ih =>
    rcases ih (q := q.place rec) holds with earlier | ⟨x, later, named⟩
    · exact earlier.place.imp_right fun named => ⟨rec, List.mem_cons_self, named⟩
    · exact .inr ⟨x, List.mem_cons_of_mem _ later, named⟩

/-- The drain moves records from the store to the unwritten records. -/
theorem ReportRing.Holds.drain {q : ReportRing} {k : SessionId} (holds : q.drain.Holds k) : q.Holds k := by
  rw [q.drain_eq] at holds
  rcases holds with ⟨rec, parked, named⟩ | placed
  · exact .inl ⟨rec, List.mem_of_mem_drop parked, named⟩
  · have earlier : (q.placeAll (q.store.take q.drainCount)).Holds k := .inr placed
    rcases earlier.placeAll with before | ⟨rec, taken, named⟩
    · exact before
    · exact .inl ⟨rec, List.mem_of_mem_take taken, named⟩

theorem ReportRing.Holds.withJob {q : ReportRing} {rec : ReportRecord} {k : SessionId} (holds : (q.withJob rec).Holds k) :
    q.Holds k := by
  rcases holds with parked | ⟨p, placed, owner⟩
  · exact .inl parked
  · simp only [ReportRing.withJob, List.mem_append, List.mem_singleton] at placed
    rcases placed with before | rfl
    · exact .inr ⟨p, before, owner⟩
    · cases owner

theorem holds_foldl_withJob (l : List ReportRecord) (q : ReportRing) (k : SessionId)
    (holds : (l.foldl ReportRing.withJob q).Holds k) : q.Holds k := by
  induction l generalizing q with
  | nil => exact holds
  | cons rec rest ih => exact (ih (q.withJob rec) holds).withJob

/-- JOB records are of no session. -/
theorem holds_handedRing {recs : List (ReportRingId × ReportRecord)} {id : ReportRingId} {q : ReportRing} {k : SessionId}
    (holds : (handedRing recs id q).Holds k) : q.Holds k := by
  unfold handedRing at holds
  split at holds
  · exact holds_foldl_withJob _ q k holds
  · exact holds

theorem ReportRing.Holds.withUnsolicited {q x : ReportRing} {rec : ReportRecord} {owner : Option SessionId} {k : SessionId}
    (holds : x.Holds k) (taken : q.withUnsolicited rec owner = some x) (named : rec.sessionOf = owner) :
    q.Holds k ∨ owner = some k := by
  unfold ReportRing.withUnsolicited at taken
  split at taken
  · cases taken
    rcases holds with parked | ⟨p, placed, owned⟩
    · exact .inl (.inl parked)
    · rcases List.mem_append.mp placed with before | last
      · exact .inl (.inr ⟨p, before, owned⟩)
      · rw [List.mem_singleton.mp last] at owned
        exact .inr owned
  · split at taken
    · cases taken
      rcases holds with ⟨y, parked, own⟩ | placed
      · rcases List.mem_append.mp parked with before | last
        · exact .inl (.inl ⟨y, before, own⟩)
        · rw [List.mem_singleton.mp last, named] at own
          exact .inr own
      · exact .inl (.inr placed)
    · cases taken

theorem holds_offeredRing {i k : SessionId} {e : Session} {rec : ReportRecord} {id : ReportRingId} {q : ReportRing}
    (named : rec.sessionOf = some i) (holds : (offeredRing i e rec id q).Holds k) :
    q.Holds k ∨ (k = i ∧ e.reportRing = some id) := by
  unfold offeredRing at holds
  split at holds
  next at_q =>
    cases taken : q.withUnsolicited rec (some i) with
    | none =>
      rw [taken] at holds
      exact .inl holds
    | some x =>
      rw [taken] at holds
      exact (ReportRing.Holds.withUnsolicited holds taken named).imp_right fun own => ⟨(Option.some.inj own).symm, at_q.1⟩
  next => exact .inl holds

/-! ### Marks (R58, R88) -/

/-- The marks still out are for followers, in list order. -/
def MarksFor (followers : List SessionId) (out : List (List SessionId)) : Prop :=
  ∀ g ∈ out, g ≠ [] ∧ g.Sublist followers

theorem MarksFor.tail {followers g : List SessionId} {out : List (List SessionId)} (marks : MarksFor followers (g :: out)) :
    MarksFor followers out := fun x later => marks x (List.mem_cons_of_mem _ later)

theorem MarksFor.cons {followers g : List SessionId} {out : List (List SessionId)} (first : g ≠ [] ∧ g.Sublist followers)
    (marks : MarksFor followers out) : MarksFor followers (g :: out) := List.forall_mem_cons.mpr ⟨first, marks⟩

/-- A mark that is taken leaves the others. -/
theorem MarksFor.after {followers : List SessionId} {out out' : List (List SessionId)} {f : SessionId}
    (marks : MarksFor followers out) (after : marksAfter f out = some out') : MarksFor followers out' := by
  induction out generalizing out' with
  | nil => cases after
  | cons g rest ih =>
    by_cases handed : f ∈ g
    · cases g with
      | nil => cases handed
      | cons x more =>
        have sublist := (marks (x :: more) List.mem_cons_self).2
        simp only [marksAfter, if_pos handed] at after
        split at after
        · cases after
          split
          · exact marks.tail
          next some_more => exact .cons ⟨some_more, (List.sublist_cons_self x more).trans sublist⟩ marks.tail
        · cases after
    · rw [marksAfter_skip f g rest handed] at after
      obtain ⟨later, taken, rfl⟩ := Option.map_eq_some_iff.mp after
      exact .cons (marks g List.mem_cons_self) (ih marks.tail taken)

theorem MarksFor.hand {followers : List SessionId} {out : List (List SessionId)} (marks : MarksFor followers out)
    (some_follow : followers ≠ []) : MarksFor followers (out ++ [followers]) := by
  intro g handed
  rcases List.mem_append.mp handed with before | last
  · exact marks g before
  · rw [List.mem_singleton.mp last]
    exact ⟨some_follow, .refl _⟩

/-! ### What every event keeps of a session's ties to the tables -/

/-- An update of a session entry that keeps its ties to the other tables. -/
structure Ties (e e' : Session) : Prop where
  free : e'.state = .free → e.state = .free
  empty : e = {} → e' = {}
  reportRing : e'.reportRing = e.reportRing
  pacer : e'.pacer = e.pacer
  followers : e'.followers = e.followers
  marks : MarksFor e.followers e.marksOut → MarksFor e.followers e'.marksOut

theorem Ties.refl (e : Session) : Ties e e := ⟨id, id, rfl, rfl, rfl, id⟩

theorem Ties.of_live {e e' : Session} (tame : Tame e e') (live : e.state ≠ .free) : Ties e e' :=
  ⟨tame.free, fun empty => absurd (by rw [empty]) live, tame.reportRing, tame.pacer, tame.followers,
    fun marks => tame.marksOut ▸ marks⟩

/-- The entries keep their ties, rings hold new records only of sessions that report to them, and the fetches are the same. -/
structure TablesKept (s t : State) : Prop where
  entries : ∀ k, Ties (s.session k) (t.session k)
  records : ∀ q k, (t.reportRing q).Holds k → (s.reportRing q).Holds k ∨ (s.session k).reportRing = some q
  fetches : t.fetches = s.fetches

theorem Ties.trans {e f g : Session} (h : Ties e f) (h' : Ties f g) : Ties e g :=
  ⟨h.free ∘ h'.free, h'.empty ∘ h.empty, h'.reportRing.trans h.reportRing, h'.pacer.trans h.pacer,
    h'.followers.trans h.followers, fun marks => h.followers ▸ h'.marks (h.followers ▸ h.marks marks)⟩

theorem TablesKept.refl (s : State) : TablesKept s s := ⟨fun _ => .refl _, fun _ _ held => .inl held, rfl⟩

theorem TablesKept.trans {s t u : State} (h : TablesKept s t) (g : TablesKept t u) : TablesKept s u := by
  refine ⟨fun k => (h.entries k).trans (g.entries k), fun q k held => ?_, g.fetches.trans h.fetches⟩
  rcases g.records q k held with before | reports
  · exact h.records q k before
  · exact .inr ((h.entries k).reportRing ▸ reports)

theorem TablesKept.tablesAgree {s t : State} (kept : TablesKept s t) (agree : s.TablesAgree) : t.TablesAgree := by
  obtain ⟨empty, ⟨alone, few, named, marks⟩, owned, live⟩ := agree
  refine ⟨fun k isFree => (kept.entries k).empty (empty k ((kept.entries k).free isFree)), ⟨fun k paced => ?_, fun k => ?_,
    fun k f follows => ?_, fun k => ?_⟩, fun q k held => ?_, fun f inFlight valid owned' isFree => ?_⟩
  · rw [(kept.entries k).followers]
    exact alone k ((kept.entries k).pacer ▸ paced)
  · rw [(kept.entries k).followers]
    exact few k
  · rw [(kept.entries f).pacer]
    exact named k f ((kept.entries k).followers ▸ follows)
  · rw [(kept.entries k).followers]
    exact (kept.entries k).marks (marks k)
  · rw [(kept.entries k).reportRing]
    exact (kept.records q k held).elim (owned q k) id
  · exact live f (kept.fetches ▸ inFlight) valid owned' ((kept.entries f.session).free isFree)

/-- A part that leaves sessions and fetches alone and gives a ring no record of a session. -/
theorem TablesKept.of_rings {s t : State} (sessions : t.sessions = s.sessions) (fetches : t.fetches = s.fetches)
    (records : ∀ q k, (t.reportRing q).Holds k → (s.reportRing q).Holds k) : TablesKept s t :=
  ⟨fun k => by rw [State.session_congr s t sessions]; exact .refl _, fun q k held => .inl (records q k held), fetches⟩

/-- A part that changes one session's entry. -/
theorem tablesKept_setSession (s : State) (i : SessionId) (e : Session) (ties : Ties (s.session i) e) :
    TablesKept s (s.setSession i e) := by
  refine ⟨fun k => ?_, fun q k held => .inl held, rfl⟩
  rw [State.session_setSession]
  split
  next own => exact own ▸ ties
  next => exact .refl _

theorem holds_returned {q : ReportRing} {n : Nat} {k : SessionId}
    (holds : (ReportRing.drain { q with reservations := n }).Holds k) : q.Holds k := holds.drain

/-- A wait that leaves its session's list keeps the session's ties. -/
theorem ties_waits (e : Session) (w : WaitId) : Ties e { e with waits := e.waits.erase w } :=
  ⟨id, fun empty => by rw [empty]; rfl, rfl, rfl, rfl, id⟩

theorem Effect.tablesKept {s t : State} (effect : Effect True s t) : TablesKept s t := by
  have frame := effect.frame
  cases effect with
  | post i kind status index value flags live =>
    obtain ⟨rings, sessions⟩ := postRecord_eq i kind status index value flags s
    refine ⟨fun k => ?_, fun q k held => ?_, frame.fetches⟩
    · rw [sessions]
      split
      next own =>
        subst own
        exact ⟨id, fun empty => absurd (by rw [empty]) (live trivial), rfl, rfl, rfl, id⟩
      next => exact .refl _
    · rw [rings] at held
      exact (holds_offeredRing (nextRecord_sessionOf i kind status index value flags s) held).imp_right
        fun ⟨own, ring⟩ => own ▸ ring
  | entry i e live mild tame => exact tablesKept_setSession s i e (.of_live (tame trivial) (live trivial))
  | marks i =>
    refine ⟨fun k => ?_, fun q k held => .inl held, rfl⟩
    rw [handMarks_session]
    split
    next own =>
      obtain ⟨rfl, follows⟩ := own
      exact ⟨id, fun empty => absurd (by rw [empty]) follows, rfl, rfl, rfl, fun marks => marks.hand follows⟩
    next => exact .refl _
  | taken f p out paced after =>
    refine tablesKept_setSession s p _ ⟨id, fun empty => ?_, rfl, rfl, rfl, fun marks => marks.after after⟩
    rw [empty] at after
    cases after
  | complete w status stamp =>
    cases found : s.wait w with
    | none =>
      have same : completeWaitAt w status stamp s = s := by simp only [completeWaitAt, found]
      rw [same]
      exact .refl s
    | some e =>
      refine ⟨fun k => ?_, fun q k held => .inl ?_, frame.fetches⟩
      · rw [completeWaitAt_session w status stamp s e found]
        split
        · exact ties_waits _ w
        · exact .refl _
      · rw [completeWaitAt_reportRing w status stamp s e found] at held
        exact holds_handedRing held
  | discard w =>
    cases found : s.wait w with
    | none =>
      have same : discardWait w s = s := by simp only [discardWait, found]
      rw [same]
      exact .refl s
    | some e =>
      refine ⟨fun k => ?_, fun q k held => .inl ?_, frame.fetches⟩
      · rw [discardWait_session w s e found]
        split
        · exact ties_waits _ w
        · exact .refl _
      · simp only [discardWait, found, returnReservation_reportRing, freeWait_reportRing] at held
        split at held
        next own => exact own.1 ▸ holds_returned held
        next => exact held
  | lower w e cond found => exact ⟨fun k => .refl _, fun q k held => .inl held, rfl⟩
  | output l o => exact ⟨fun k => .refl _, fun q k held => .inl held, rfl⟩

theorem Effects.tablesAgree {s t : State} (run : Effects True s t) (agree : s.TablesAgree) : t.TablesAgree :=
  run.keep (fun _ _ effect before => effect.tablesKept.tablesAgree before) agree

/-- Every event keeps who reports where, who paces whom and who is FREE. -/
theorem Effects.ties {s t : State} (run : Effects True s t) (k : SessionId) :
    (t.session k).pacer = (s.session k).pacer ∧ (t.session k).followers = (s.session k).followers ∧
      (t.session k).reportRing = (s.session k).reportRing :=
  run.keep (P := fun u => (u.session k).pacer = (s.session k).pacer ∧ (u.session k).followers = (s.session k).followers ∧
      (u.session k).reportRing = (s.session k).reportRing)
    (fun _ _ effect ⟨pacer, followers, ring⟩ =>
      have ties := effect.tablesKept.entries k
      ⟨ties.pacer.trans pacer, ties.followers.trans followers, ties.reportRing.trans ring⟩) ⟨rfl, rfl, rfl⟩

end Sys2Proof.Machine

/-!
PROOFS. A close keeps the tables in agreement: the marks already handed out, the release of followers, the pacer, and the entry
itself (R16, R19, R88, R89, R91, R92).
-/

namespace Sys2Proof.Machine

/-! ### The pacing relation -/

theorem State.PacingSound.follower_ne {s : State} (sound : s.PacingSound) {p f : SessionId}
    (follows : f ∈ (s.session p).followers) : f ≠ p := by
  rintro rfl
  have alone := sound.1 f (by rw [sound.2.2.1 f f follows]; rfl)
  rw [alone] at follows
  cases follows

theorem State.PacingSound.pacer_unpaced {s : State} (sound : s.PacingSound) {p f : SessionId}
    (follows : f ∈ (s.session p).followers) : (s.session p).pacer = none := by
  by_contra paced
  have alone := sound.1 p (Option.isSome_iff_ne_none.mpr paced)
  rw [alone] at follows
  cases follows

/-- A session without followers has no marks out. -/
theorem State.PacingSound.no_marks {s : State} (sound : s.PacingSound) {p : SessionId} (alone : (s.session p).followers = []) :
    (s.session p).marksOut = [] := by
  refine List.eq_nil_iff_forall_not_mem.mpr fun g handed => ?_
  obtain ⟨some_mark, sublist⟩ := sound.2.2.2 p g handed
  rw [alone] at sublist
  exact some_mark (List.sublist_nil.mp sublist)

theorem State.TablesAgree.settle {s : State} (agree : s.TablesAgree) : (settle s).TablesAgree :=
  (effects_settle s fun _ => agree.1).tablesAgree agree

/-! ### The marks already handed out (R89) -/

theorem othersKeepButWaits_actOnMark (f : SessionId) (s : State) : OthersKeepButWaits f s (actOnMark f s) := by
  unfold actOnMark
  dsimp only
  split
  · split
    · exact othersKeepButWaits_windowEnd f s
    · exact othersKeepButWaits_updSession f s _
  · exact .refl f s

/-- The follower at the head of the oldest event takes its mark. -/
theorem takeMark_head {s : State} (agree : s.TablesAgree) (p f : SessionId) (more : List SessionId)
    (rest : List (List SessionId)) (out : (s.session p).marksOut = (f :: more) :: rest) :
    ((takeMark f s).session p).marksOut = if more = [] then rest else more :: rest := by
  obtain ⟨-, sound, -⟩ := agree
  have handed := (sound.2.2.2 p (f :: more) (by rw [out]; exact List.mem_cons_self)).2
  have follows : f ∈ (s.session p).followers := handed.subset List.mem_cons_self
  have after : marksAfter f (s.session p).marksOut = some (if more = [] then rest else more :: rest) := by
    rw [out, marksAfter_head]
  rw [takeMark_of_marksAfter f p s _ (sound.2.2.1 p f follows) after]
  obtain ⟨l, kept⟩ := othersKeepButWaits_actOnMark f (s.setSession p { s.session p with
    marksOut := if more = [] then rest else more :: rest }) p (Ne.symm (sound.follower_ne follows))
  rw [kept, State.session_setSession_same]

theorem takeMarks_all (p : SessionId) (l : List SessionId) {s : State} (agree : s.TablesAgree)
    (all : (s.session p).marksOut.flatten = l) : ((takeMarks l s).session p).marksOut = [] := by
  induction l generalizing s with
  | nil =>
    refine List.eq_nil_iff_forall_not_mem.mpr fun g handed => ?_
    exact (agree.2.1.2.2.2 p g handed).1 (List.flatten_eq_nil_iff.mp all g handed)
  | cons f rest ih =>
    refine ih ((effects_takeMark f s).tablesAgree agree) ?_
    cases out : (s.session p).marksOut with
    | nil => rw [out] at all; cases all
    | cons g later =>
      cases g with
      | nil => exact absurd rfl (agree.2.1.2.2.2 p [] (by rw [out]; exact List.mem_cons_self)).1
      | cons x more =>
        rw [out, List.flatten_cons, List.cons_append] at all
        obtain ⟨rfl, rfl⟩ := List.cons.inj all
        rw [takeMark_head agree p x more later out]
        split
        next none => rw [none, List.nil_append]
        next => rfl

theorem State.TablesAgree.flushMarks {s : State} (agree : s.TablesAgree) (k : SessionId) : (flushMarks k s).TablesAgree :=
  (effects_flushMarks k s).tablesAgree agree

theorem flushMarks_marksOut {s : State} (agree : s.TablesAgree) (k : SessionId) :
    ((Machine.flushMarks k s).session k).marksOut = [] := takeMarks_all k _ agree rfl

/-! ### The release of a follower (R92) -/

/-- The entries of a follower that is released and of its pacer. -/
def unlinked (p f : SessionId) (s : State) : State :=
  (s.updSession f Session.releasedFromPacer).updSession p (fun e => { e with followers := e.followers.erase f })

theorem releaseFollower_eq (p f : SessionId) (s : State) :
    releaseFollower p f s =
      postRecord f .notice .pacerLost 0 p.val {} (completeWaits f (WaitCond.endedIdle .pacerLost) (unlinked p f s)) := rfl

theorem Session.releasedFromPacer_eq (e : Session) :
    e.releasedFromPacer =
      { e with
        state := if e.state = .active then .idle else e.state
        windowOpen := e.windowOpen && !decide (e.state = .active), elapsed := if e.state = .active then 0 else e.elapsed
        partialFlag := e.partialFlag && !decide (e.state = .active)
        wrappedFlag := e.wrappedFlag && !decide (e.state = .active)
        hold := { e.hold with pacer := false }, pacer := none } := by
  unfold Session.releasedFromPacer
  by_cases active : e.state = .active
  · simp [active, Session.clearWindow]
  · simp [active]

theorem unlinked_session (p f j : SessionId) (s : State) (other : f ≠ p) :
    (unlinked p f s).session j =
      if j = p then { s.session p with followers := (s.session p).followers.erase f }
      else if j = f then (s.session f).releasedFromPacer
      else s.session j := by
  simp only [unlinked, State.session_updSession, if_neg (Ne.symm other)]

/-- The tables with other links and states that agree with them. -/
theorem State.TablesAgree.of_links {s t : State} (agree : s.TablesAgree) (empty : t.FreeEntriesEmpty) (pacing : t.PacingSound)
    (reportRing : ∀ k, (t.session k).reportRing = (s.session k).reportRing)
    (free : ∀ k, (t.session k).state = .free → (s.session k).state = .free)
    (rings : t.reportRings = s.reportRings) (fetches : t.fetches = s.fetches) : t.TablesAgree := by
  refine ⟨empty, pacing, fun q k held => ?_, fun f inFlight valid owned isFree => ?_⟩
  · rw [reportRing]
    exact agree.2.2.1 q k (State.reportRing_congr s t rings q ▸ held)
  · exact agree.2.2.2 f (fetches ▸ inFlight) valid owned (free _ isFree)

section Unlinked

variable {s : State} (agree : s.TablesAgree) (p f : SessionId) (follows : f ∈ (s.session p).followers)

include agree follows

/-- Neither of the two is FREE, before or after. -/
theorem unlinked_free (j : SessionId) (isFree : ((unlinked p f s).session j).state = .free) :
    (s.session j).state = .free ∧ j ≠ p ∧ j ≠ f := by
  obtain ⟨empty, sound, -⟩ := agree
  have paced := sound.2.2.1 p f follows
  have liveP : (s.session p).state ≠ .free := empty.live fun h => by rw [h] at follows; cases follows
  have liveF : (s.session f).state ≠ .free := empty.live fun h => by rw [h] at paced; cases paced
  rw [unlinked_session p f j s (sound.follower_ne follows)] at isFree
  split at isFree
  · exact absurd isFree liveP
  next notP =>
    split at isFree
    · rw [Session.releasedFromPacer_eq] at isFree
      dsimp only at isFree
      split at isFree
      · cases isFree
      · exact absurd isFree liveF
    next notF => exact ⟨isFree, notP, notF⟩

theorem unlinked_pacingSound (noMarks : (s.session p).marksOut = []) : (unlinked p f s).PacingSound := by
  have other := agree.2.1.follower_ne follows
  have unpaced := agree.2.1.pacer_unpaced follows
  obtain ⟨-, ⟨alone, few, named, marks⟩, -⟩ := agree
  have paced := named p f follows
  have noFollowers : (s.session f).followers = [] := alone f (by rw [paced]; rfl)
  have entry (j : SessionId) := unlinked_session p f j s other
  refine ⟨fun j paced' => ?_, fun j => ?_, fun j g follows' => ?_, fun j => ?_⟩
  · rw [entry] at paced' ⊢
    split at paced'
    next => rw [unpaced] at paced'; cases paced'
    next notP =>
      split at paced'
      next => rw [Session.releasedFromPacer_eq] at paced'; cases paced'
      next notF => rw [if_neg notP, if_neg notF]; exact alone j paced'
  · rw [entry]
    split
    · exact ⟨List.erase_sublist.length_le.trans (few p).1, (few p).2.erase f⟩
    · split
      · rw [Session.releasedFromPacer_eq]
        exact few f
      · exact few j
  · rw [entry] at follows'
    split at follows'
    next isP =>
      subst isP
      obtain ⟨notF, before⟩ := (few j).2.mem_erase_iff.mp follows'
      have notP : g ≠ j := State.PacingSound.follower_ne ⟨alone, few, named, marks⟩ before
      rw [entry, if_neg notP, if_neg notF]
      exact named j g before
    next notP =>
      split at follows'
      next isF =>
        rw [Session.releasedFromPacer_eq] at follows'
        dsimp only at follows'
        rw [noFollowers] at follows'
        cases follows'
      next notF =>
        have pacer := named j g follows'
        have gNotP : g ≠ p := fun same => by rw [same, unpaced] at pacer; cases pacer
        have gNotF : g ≠ f := fun same => by
          rw [same, paced] at pacer
          exact notP (Option.some.inj pacer).symm
        rw [entry, if_neg gNotP, if_neg gNotF]
        exact pacer
  · rw [entry]
    split
    next => rw [noMarks]; exact fun g handed => nomatch handed
    next =>
      split
      · rw [Session.releasedFromPacer_eq]
        exact marks f
      · exact marks j

theorem unlinked_tablesAgree (noMarks : (s.session p).marksOut = []) : (unlinked p f s).TablesAgree := by
  have freed := unlinked_free agree p f follows
  have entry (j : SessionId) := unlinked_session p f j s (agree.2.1.follower_ne follows)
  refine agree.of_links (fun j isFree => ?_) (unlinked_pacingSound agree p f follows noMarks) (fun j => ?_)
    (fun j isFree => (freed j isFree).1) rfl rfl
  · obtain ⟨was, notP, notF⟩ := freed j isFree
    rw [entry, if_neg notP, if_neg notF]
    exact agree.1 j was
  · rw [entry]
    split
    next isP => rw [isP]
    next =>
      split
      next isF => rw [isF, Session.releasedFromPacer_eq]
      next => rfl

end Unlinked

theorem unlinked_live {s : State} (agree : s.TablesAgree) (p f : SessionId) (follows : f ∈ (s.session p).followers) :
    ((unlinked p f s).session f).state ≠ .free := by
  have paced := agree.2.1.2.2.1 p f follows
  have liveF : (s.session f).state ≠ .free := agree.1.live fun h => by rw [h] at paced; cases paced
  rw [unlinked_session p f f s (agree.2.1.follower_ne follows), if_neg (agree.2.1.follower_ne follows), if_pos rfl,
    Session.releasedFromPacer_eq]
  dsimp only
  split
  · nofun
  · exact liveF

/-- What follows the unlinking in a release are events of the follower. -/
theorem effects_afterUnlinked {s : State} (agree : s.TablesAgree) (p f : SessionId) (follows : f ∈ (s.session p).followers) :
    Effects True (unlinked p f s) (releaseFollower p f s) := by
  have waits := effects_completeWaits (guard := True) f (WaitCond.endedIdle .pacerLost) (unlinked p f s)
  exact waits.trans (Effect.post f _ _ _ _ _ fun _ => waits.live f (unlinked_live agree p f follows)).run

theorem releaseFollower_tablesAgree {s : State} (agree : s.TablesAgree) (p f : SessionId)
    (follows : f ∈ (s.session p).followers) (noMarks : (s.session p).marksOut = []) : (releaseFollower p f s).TablesAgree :=
  (effects_afterUnlinked agree p f follows).tablesAgree (unlinked_tablesAgree agree p f follows noMarks)

/-- The pacer keeps its other followers, and no marks are out. -/
theorem releaseFollower_pacer {s : State} (agree : s.TablesAgree) (p f : SessionId) (follows : f ∈ (s.session p).followers)
    (noMarks : (s.session p).marksOut = []) :
    ((releaseFollower p f s).session p).followers = (s.session p).followers.erase f ∧
      ((releaseFollower p f s).session p).marksOut = [] := by
  have other := agree.2.1.follower_ne follows
  have entry := (unlinked_session p f p s other).trans (if_pos rfl)
  have waits := completeList_keepButWaits (WaitCond.endedIdle .pacerLost) ((unlinked p f s).session f).waits (unlinked p f s)
  obtain ⟨l, kept⟩ := ((waits.others f).trans (othersKeepButWaits_postRecord f .notice .pacerLost 0 p.val {} _)) p
    (Ne.symm other)
  have released : (releaseFollower p f s).session p = _ := kept
  rw [released, entry]
  exact ⟨rfl, noMarks⟩

theorem releaseFollowers_tablesAgree (p : SessionId) (l : List SessionId) {s : State} (agree : s.TablesAgree)
    (all : (s.session p).followers = l) (noMarks : (s.session p).marksOut = []) :
    (releaseFollowers p l s).TablesAgree ∧ ((releaseFollowers p l s).session p).followers = [] := by
  induction l generalizing s with
  | nil => exact ⟨agree, all⟩
  | cons f rest ih =>
    have follows : f ∈ (s.session p).followers := by rw [all]; exact List.mem_cons_self
    obtain ⟨followers, marks⟩ := releaseFollower_pacer agree p f follows noMarks
    rw [all, List.erase_cons_head] at followers
    exact ih (releaseFollower_tablesAgree agree p f follows noMarks) followers marks

/-! ### The pacer's list (R91) -/

theorem marksWithout_marksFor (k : SessionId) {followers : List SessionId} {out : List (List SessionId)}
    (distinct : followers.Nodup) (marks : MarksFor followers out) : MarksFor (followers.erase k) (marksWithout k out) := by
  intro g left
  simp only [marksWithout, List.mem_filter, List.mem_map, decide_eq_true_eq] at left
  obtain ⟨⟨g', handed, rfl⟩, some_left⟩ := left
  refine ⟨some_left, ?_⟩
  have erased : followers.erase k = followers.filter (fun x => decide (x ≠ k)) := by
    rw [distinct.erase_eq_filter]
    exact List.filter_congr fun x _ => by simp [bne, beq_eq_decide]
  rw [erased]
  exact (marks g' handed).2.filter _

/-- An entry with other links keeps the tables in agreement while the pacing relation stays sound. -/
theorem State.TablesAgree.relinked {s : State} (agree : s.TablesAgree) (i : SessionId) (e : Session)
    (state : e.state = (s.session i).state) (reportRing : e.reportRing = (s.session i).reportRing)
    (empty : s.session i = {} → e = {}) (pacing : (s.setSession i e).PacingSound) : (s.setSession i e).TablesAgree := by
  have entry (j : SessionId) := State.session_setSession s i j e
  refine agree.of_links (fun j isFree => ?_) pacing (fun j => ?_) (fun j isFree => ?_) rfl rfl
  · rw [entry] at isFree ⊢
    split at isFree
    next own => rw [if_pos own]; exact empty (agree.1 i (state ▸ isFree))
    next other => rw [if_neg other]; exact agree.1 j isFree
  · rw [entry]
    split
    next own => rw [own, reportRing]
    next => rfl
  · rw [entry] at isFree
    split at isFree
    next own => exact own ▸ state ▸ isFree
    next => exact isFree

/-- The pacer's entry without the follower that leaves. -/
def Session.withoutFollower (e : Session) (k : SessionId) : Session :=
  { e with followers := e.followers.erase k, marksOut := marksWithout k e.marksOut }

theorem withoutFollower_tablesAgree {s : State} (agree : s.TablesAgree) (p k : SessionId) :
    (s.setSession p ((s.session p).withoutFollower k)).TablesAgree := by
  have ⟨_, ⟨alone, few, named, marks⟩, _⟩ := agree
  have pacer (j : SessionId) : ((s.setSession p ((s.session p).withoutFollower k)).session j).pacer = (s.session j).pacer := by
    rw [State.session_setSession]
    split
    next own => rw [own]; rfl
    next => rfl
  refine agree.relinked p _ rfl rfl (fun none => by rw [none]; rfl) ⟨fun j paced => ?_, fun j => ?_, fun j f follows => ?_,
    fun j => ?_⟩
  · rw [pacer] at paced
    rw [State.session_setSession]
    split
    next own => subst own; simp only [Session.withoutFollower, alone j paced, List.erase_nil]
    next => exact alone j paced
  · rw [State.session_setSession]
    split
    · exact ⟨List.erase_sublist.length_le.trans (few p).1, (few p).2.erase k⟩
    · exact few j
  · rw [pacer]
    rw [State.session_setSession] at follows
    split at follows
    next own => exact own ▸ named p f (List.mem_of_mem_erase follows)
    next => exact named j f follows
  · rw [State.session_setSession]
    split
    · exact marksWithout_marksFor k (few p).2 (marks p)
    · exact marks j

/-- A session that is in no list loses its pacer. -/
theorem unpaced_tablesAgree {s : State} (agree : s.TablesAgree) (k : SessionId) (unlisted : ∀ j, k ∉ (s.session j).followers) :
    (s.setSession k { s.session k with pacer := none }).TablesAgree := by
  have ⟨_, ⟨alone, few, named, marks⟩, _⟩ := agree
  have links (j : SessionId) : ((s.setSession k { s.session k with pacer := none }).session j).followers =
      (s.session j).followers ∧ ((s.setSession k { s.session k with pacer := none }).session j).marksOut =
        (s.session j).marksOut := by
    rw [State.session_setSession]
    split
    next own => rw [own]; exact ⟨rfl, rfl⟩
    next => exact ⟨rfl, rfl⟩
  refine agree.relinked k _ rfl rfl (fun none => by rw [none]) ⟨fun j paced => ?_, fun j => ?_, fun j f follows => ?_,
    fun j => ?_⟩
  · rw [(links j).1]
    rw [State.session_setSession] at paced
    split at paced
    · cases paced
    · exact alone j paced
  · rw [(links j).1]
    exact few j
  · rw [(links j).1] at follows
    have other : f ≠ k := fun same => unlisted j (same ▸ follows)
    rw [State.session_setSession, if_neg other]
    exact named j f follows
  · rw [(links j).1, (links j).2]
    exact marks j

theorem leavePacer_eq (k p : SessionId) (s : State) (paced : (s.session k).pacer = some p) :
    leavePacer k s =
      let v := s.setSession p ((s.session p).withoutFollower k)
      v.setSession k { v.session k with pacer := none } := by
  simp only [leavePacer, paced]
  rfl

/-- After a session has left its pacer the tables agree, and it has none. -/
theorem leavePacer_tablesAgree {s : State} (agree : s.TablesAgree) (k : SessionId) :
    (leavePacer k s).TablesAgree ∧ ((leavePacer k s).session k).pacer = none := by
  cases paced : (s.session k).pacer with
  | none =>
    have same : leavePacer k s = s := by simp only [leavePacer, paced]
    rw [same]
    exact ⟨agree, paced⟩
  | some p =>
    rw [leavePacer_eq k p s paced]
    have left := withoutFollower_tablesAgree agree p k
    have entry (j : SessionId) := State.session_setSession s p j ((s.session p).withoutFollower k)
    generalize s.setSession p ((s.session p).withoutFollower k) = v at left entry ⊢
    have unlisted (j : SessionId) : k ∉ (v.session j).followers := by
      rw [entry]
      split
      · exact fun follows => ((agree.2.1.2.1 p).2.mem_erase_iff.mp follows).1 rfl
      next other =>
        intro follows
        have own := agree.2.1.2.2.1 j k follows
        rw [paced] at own
        exact other (Option.some.inj own).symm
    refine ⟨unpaced_tablesAgree left k unlisted, ?_⟩
    rw [State.session_setSession_same]

/-! ### The rest of a close (R16, R17, R18) -/

/-- The last steps of a close: the fetch is void, the outputs are released, the records are purged, the entry is FREE. -/
def freed (k : SessionId) (v : State) : State := (purgeSession k (releaseOutputs k (voidFetches k v))).setSession k {}

theorem freed_session (k j : SessionId) (v : State) : (freed k v).session j = if j = k then {} else v.session j := by
  rw [freed, State.session_setSession, purgeSession_session]
  rfl

theorem freed_fetches (k : SessionId) (v : State) :
    (freed k v).fetches = v.fetches.map (fun f => if f.session = k then { f with isVoid := true } else f) := by
  unfold freed purgeSession
  split <;> rfl

theorem freed_reportRing (k : SessionId) (q : ReportRingId) (v : State) :
    (freed k v).reportRing q =
      if (v.session k).reportRing = some q then (v.reportRing q).purge k else v.reportRing q := by
  have same : ((releaseOutputs k (voidFetches k v)).session k).reportRing = (v.session k).reportRing := rfl
  unfold freed purgeSession
  rw [same]
  cases ring : (v.session k).reportRing with
  | none => rfl
  | some p =>
    rw [State.reportRing_setSession, State.reportRing_updReportRing]
    by_cases own : q = p
    · subst own
      rw [if_pos rfl, if_pos rfl]
      rfl
    · rw [if_neg own, if_neg fun h => own (Option.some.inj h).symm]
      rfl

theorem holds_purge {q : ReportRing} {k j : SessionId} (holds : (q.purge k).Holds j) : q.Holds j ∧ j ≠ k := by
  rcases holds with ⟨rec, parked, named⟩ | ⟨p, placed, owner⟩
  · simp only [ReportRing.purge, List.mem_filter, decide_eq_true_eq] at parked
    refine ⟨.inl ⟨rec, parked.1, named⟩, ?_⟩
    rintro rfl
    exact parked.2 named
  · simp only [ReportRing.purge, List.mem_map] at placed
    obtain ⟨p', before, rfl⟩ := placed
    split at owner
    · cases owner
    next other =>
      refine ⟨.inr ⟨p', before, owner⟩, ?_⟩
      rintro rfl
      exact other owner

theorem freed_tablesAgree {v : State} (agree : v.TablesAgree) (k : SessionId) (unpaced : (v.session k).pacer = none) :
    (freed k v).TablesAgree := by
  obtain ⟨empty, ⟨unshared, few, named, marks⟩, owned, live⟩ := agree
  have notFollower (j : SessionId) : k ∉ (v.session j).followers := fun follows => by
    have paced := named j k follows
    rw [unpaced] at paced
    cases paced
  refine ⟨fun j isFree => ?_, ⟨fun j paced => ?_, fun j => ?_, fun j f follows => ?_, fun j => ?_⟩, fun q j held => ?_,
    fun f inFlight valid orphan isFree => ?_⟩
  · rw [freed_session] at isFree ⊢
    split
    next => rfl
    next other => rw [if_neg other] at isFree; exact empty j isFree
  · rw [freed_session] at paced ⊢
    split
    next => rfl
    next other => rw [if_neg other] at paced; exact unshared j paced
  · rw [freed_session]
    split
    · exact ⟨Nat.zero_le _, .nil⟩
    · exact few j
  · rw [freed_session] at follows
    split at follows
    next => cases follows
    next =>
      have other : f ≠ k := fun same => notFollower j (same ▸ follows)
      rw [freed_session, if_neg other]
      exact named j f follows
  · rw [freed_session]
    split
    · exact fun g handed => nomatch handed
    · exact marks j
  · rw [freed_reportRing] at held
    split at held
    next =>
      obtain ⟨before, other⟩ := holds_purge held
      rw [freed_session, if_neg other]
      exact owned q j before
    next elsewhere =>
      have before := owned q j held
      have other : j ≠ k := fun same => elsewhere (same ▸ before)
      rw [freed_session, if_neg other]
      exact before
  · rw [freed_fetches, List.mem_map] at inFlight
    obtain ⟨f', before, rfl⟩ := inFlight
    split at valid
    · cases valid
    next other =>
      rw [if_neg other] at orphan isFree
      rw [freed_session, if_neg other] at isFree
      exact live f' before valid orphan isFree

/-- A close keeps the tables in agreement, whatever becomes of the waits. -/
theorem closeSession_tablesAgree {endWaits : SessionId → State → State}
    (ends : ∀ k s, Effects True s (endWaits k s)) (k : SessionId) {s : State} (agree : s.TablesAgree) :
    (closeSession endWaits k s).TablesAgree := by
  have flushed := agree.flushMarks k
  have released := (releaseFollowers_tablesAgree k _ flushed rfl (flushMarks_marksOut agree k)).1
  obtain ⟨left, noPacer⟩ := leavePacer_tablesAgree released k
  have ended := ends k (leavePacer k (releaseFollowers k ((Machine.flushMarks k s).session k).followers (Machine.flushMarks k s)))
  exact freed_tablesAgree (ended.tablesAgree left) k ((ended.ties k).1.trans noPacer)

end Sys2Proof.Machine

/-!
PROOFS. The tables over every form of a command's effect (R1, R18, R58, R88, R149).
-/

namespace Sys2Proof.Machine

/-! ### Parts that keep the tables -/

theorem State.TablesAgree.congr {s t : State} (agree : s.TablesAgree) (sessions : t.sessions = s.sessions)
    (rings : t.reportRings = s.reportRings) (fetches : t.fetches = s.fetches) : t.TablesAgree :=
  (TablesKept.of_rings sessions fetches fun q _ held => State.reportRing_congr s t rings q ▸ held).tablesAgree agree

theorem tablesKept_answer (r : JobRingId) (report : ReportRingId) (tag : BitVec 16) (a : Answer) (t : State) :
    TablesKept t (answer r report tag a t) := by
  have only := answer_onlyRings r report tag a t
  refine .of_rings (by rw [only]) (by rw [only]) fun q k held => ?_
  rw [answer_reportRing] at held
  exact holds_handedRing held

/-- A ring that gets no record of a session. -/
theorem tablesKept_setReportRing (s : State) (q : ReportRingId) (x : ReportRing)
    (holds : ∀ k, x.Holds k → (s.reportRing q).Holds k) : TablesKept s (s.setReportRing q x) := by
  refine .of_rings rfl rfl fun i k held => ?_
  rw [State.reportRing_setReportRing] at held
  split at held
  next own => exact own ▸ holds k held
  next => exact held

theorem tablesKept_updReportRing (s : State) (q : ReportRingId) (f : ReportRing → ReportRing)
    (holds : ∀ k, (f (s.reportRing q)).Holds k → (s.reportRing q).Holds k) : TablesKept s (s.updReportRing q f) :=
  tablesKept_setReportRing s q _ holds

theorem tablesKept_returnReservation (q : ReportRingId) (s : State) : TablesKept s (returnReservation q s) := by
  refine .of_rings (returnReservation_sessions q s) (eventFrame_returnReservation q s).fetches fun i k held => ?_
  rw [returnReservation_reportRing] at held
  split at held
  next own => exact own.1 ▸ holds_returned held
  next => exact held

theorem ringNotice_sessionOf (status : Status) (value : Word32) (s : State) : (ringNotice status value s).sessionOf = none := rfl

/-- A NOTICE of a ring is of no session. -/
theorem tablesKept_postRingNotice (status : Status) (value : Word32) (s : State) :
    TablesKept s (postRingNotice status value s) := by
  obtain ⟨only, others, offered⟩ := postRingNotice_eq status value s
  refine .of_rings (by rw [only]) (by rw [only]) fun q k held => ?_
  by_cases control : q = 0
  · subst control
    unfold NoticeOffered at offered
    split at offered
    next x _ taken =>
      rw [offered.1] at held
      exact (held.withUnsolicited taken (ringNotice_sessionOf status value s)).elim id nofun
    next => exact offered.1 ▸ held
    next => exact offered.1 ▸ held
  · exact others q control ▸ held

/-! ### OPEN, AWAIT and the point fetch -/

section Configured

variable (r : JobRingId) (k : SessionId) (w : JobRecord) (setup : Session) {t : State} (agree : t.TablesAgree)
  (isFree : (t.session k).state = .free) (asked : openSetup w = some setup) (passes : openRefusal r w setup t = none)

include isFree passes

/-- A session that is FREE after the configuration was so before it, and is neither the opened one nor its pacer. -/
theorem configure_free (j : SessionId) (still : ((configure r k w setup t).session j).state = .free) :
    (t.session j).state = .free ∧ j ≠ k ∧ setup.pacer ≠ some j := by
  rw [configure_session r k w setup t (openRefusal_other r w setup t passes k isFree)] at still
  split at still
  · cases still
  next other =>
    split at still
    next paced => exact absurd still (openRefusal_pacer r w setup t passes j paced).1
    next unpaced => exact ⟨still, other, unpaced⟩

include agree asked

theorem configure_pacingSound : (configure r k w setup t).PacingSound := by
  obtain ⟨empty, ⟨alone, few, named, marks⟩, -⟩ := agree
  have entry := configure_session r k w setup t (openRefusal_other r w setup t passes k isFree)
  have notFollower (j : SessionId) : k ∉ (t.session j).followers := fun follows => by
    have paced := named j k follows
    rw [empty k isFree] at paced
    cases paced
  have fresh : (openedSession r w setup t).followers = [] ∧ (openedSession r w setup t).marksOut = [] := by
    rw [openedSession, openSetup_fresh w setup asked]
    exact ⟨rfl, rfl⟩
  refine ⟨fun j paced => ?_, fun j => ?_, fun j f follows => ?_, fun j => ?_⟩
  · rw [entry] at paced ⊢
    split at paced
    next own => rw [if_pos own]; exact fresh.1
    next other =>
      rw [if_neg other]
      split at paced
      next pacer =>
        dsimp only at paced
        rw [(openRefusal_pacer r w setup t passes j pacer).2.1] at paced
        cases paced
      next unpaced =>
        rw [if_neg unpaced]
        exact alone j paced
  · rw [entry]
    split
    · rw [fresh.1]
      exact ⟨Nat.zero_le _, .nil⟩
    · split
      next pacer =>
        have room := (openRefusal_pacer r w setup t passes j pacer).2.2.1
        refine ⟨?_, List.nodup_append.mpr ⟨(few j).2, List.nodup_singleton k, ?_⟩⟩
        · simp only [List.length_append, List.length_singleton]
          omega
        · rintro a listed b last rfl
          exact notFollower j (List.mem_singleton.mp last ▸ listed)
      next => exact few j
  · rw [entry] at follows
    have old (listed : f ∈ (t.session j).followers) : ((configure r k w setup t).session f).pacer = some j := by
      have paced := named j f listed
      have other : f ≠ k := fun same => notFollower j (same ▸ listed)
      rw [entry, if_neg other]
      split <;> exact paced
    split at follows
    · rw [fresh.1] at follows
      cases follows
    · split at follows
      next pacer =>
        rcases List.mem_append.mp follows with listed | last
        · exact old listed
        · rw [List.mem_singleton.mp last, entry, if_pos rfl]
          exact pacer
      next => exact old follows
  · rw [entry]
    split
    · rw [fresh.2]
      exact fun g handed => nomatch handed
    · split
      · exact fun g handed => ⟨(marks j g handed).1, (marks j g handed).2.trans (List.sublist_append_left _ _)⟩
      · exact marks j

theorem configure_tablesAgree : (configure r k w setup t).TablesAgree := by
  have freed := configure_free r k w setup isFree passes
  have pacing := configure_pacingSound r k w setup agree isFree asked passes
  obtain ⟨empty, -, owned, live⟩ := agree
  have entry := configure_session r k w setup t (openRefusal_other r w setup t passes k isFree)
  have frame := configure_frame r k w setup t
  refine ⟨fun j still => ?_, pacing, fun q j held => ?_, fun f inFlight valid orphan still => ?_⟩
  · obtain ⟨before, other, unpaced⟩ := freed j still
    rw [entry, if_neg other, if_neg unpaced]
    exact empty j before
  · have before : (t.reportRing q).Holds j := State.reportRing_congr t (configure r k w setup t) (by rw [frame]) q ▸ held
    have reports := owned q j before
    have other : j ≠ k := fun same => by
      rw [same, empty k isFree] at reports
      cases reports
    rw [entry, if_neg other]
    split <;> exact reports
  · have before : f ∈ t.fetches := by
      rw [frame] at inFlight
      exact inFlight
    exact live f before valid orphan (freed f.session still).1

end Configured

theorem beginFetch_tablesAgree (r : JobRingId) (k : SessionId) (w : JobRecord) (n : Nat) (mode : CommitMode) {t : State}
    (agree : t.TablesAgree) (notFree : (t.session k).state ≠ .free) : (beginFetch r k w n mode t).TablesAgree := by
  obtain ⟨empty, pacing, owned, live⟩ := agree
  refine ⟨empty, pacing, owned, fun f inFlight valid orphan => ?_⟩
  rcases List.mem_append.mp inFlight with before | last
  · exact live f before valid orphan
  · rw [List.mem_singleton.mp last]
    exact notFree

theorem takeWait_tablesKept (r : JobRingId) (k : SessionId) (w : JobRecord) (cond : WaitCond) (id : WaitId) (t : State)
    (live : (t.session k).state ≠ .free) : TablesKept t (takeWait r k w cond id t) := by
  refine ⟨fun j => ?_, fun q j held => .inl held, rfl⟩
  have entry : (takeWait r k w cond id t).session j =
      if j = k then { t.session k with waits := (t.session k).waits ++ [id] } else t.session j :=
    State.session_updSession _ k j _
  rw [entry]
  split
  next own =>
    subst own
    exact ⟨fun h => h, fun empty => absurd (by rw [empty]) live, rfl, rfl, rfl, fun marks => marks⟩
  next => exact .refl _

theorem ties_stage (e : Session) (points : List Point) (mode : CommitMode) (live : e.state ≠ .free) :
    Ties e (e.stage points mode) := by
  unfold Session.stage Session.commit
  dsimp only
  split
  · exact ⟨id, fun h => absurd (by rw [h]) live, rfl, rfl, rfl, id⟩
  · exact ⟨id, fun h => absurd (by rw [h]) live, rfl, rfl, rfl, id⟩

/-- The fetch that ends is for a session that is not FREE, unless it is void or of a dropped ring. -/
theorem fetchDone_tablesKept (f : PointFetch) (entries : List PointEntry) {t : State} (agree : t.TablesAgree)
    (inFlight : f ∈ t.fetches) : TablesKept t (fetchDone f entries t) := by
  unfold fetchDone
  split
  · exact .refl t
  next orphan =>
    split
    · exact tablesKept_answer _ _ _ _ t
    next valid =>
      dsimp only
      split
      · exact tablesKept_answer _ _ _ _ t
      · have live := agree.2.2.2 f inFlight (Bool.eq_false_iff.mpr valid) (Bool.eq_false_iff.mpr orphan)
        have staged (points : List Point) := tablesKept_setSession t f.session _
          (ties_stage (t.session f.session) points f.mode live)
        exact (staged _).trans (tablesKept_answer _ _ _ _ _)

theorem fetchFailed_tablesKept (f : PointFetch) (entry : Nat) (t : State) : TablesKept t (fetchFailed f entry t) := by
  unfold fetchFailed
  split
  · exact .refl t
  · split <;> exact tablesKept_answer _ _ _ _ t

/-- Fewer fetches. -/
theorem State.TablesAgree.fewer_fetches {s t : State} (agree : s.TablesAgree) (sessions : t.sessions = s.sessions)
    (rings : t.reportRings = s.reportRings) (fetches : t.fetches ⊆ s.fetches) : t.TablesAgree := by
  have same : ({ t with fetches := s.fetches } : State).TablesAgree := agree.congr sessions rings rfl
  obtain ⟨empty, pacing, owned, live⟩ := same
  exact ⟨empty, pacing, owned, fun f inFlight => live f (fetches inFlight)⟩

theorem endFetch_tablesAgree (n : Nat) (f : PointFetch) {t : State} (agree : t.TablesAgree) :
    (endFetch n f t).TablesAgree := by
  unfold endFetch
  dsimp only
  split <;> exact agree.fewer_fetches rfl rfl (List.eraseIdx_subset)

/-! ### A write error (R153) -/

/-- The lost counts rise at sessions that the lost records name, which are not FREE. -/
theorem loseRecords_tablesKept (l : List Placed) (s : State)
    (live : ∀ p ∈ l, ∀ k, p.owner = some k → (s.session k).state ≠ .free) : TablesKept s (loseRecords l s) := by
  induction l generalizing s with
  | nil => exact .refl s
  | cons p rest ih =>
    have later (q : Placed) (mem : q ∈ rest) := live q (List.mem_cons_of_mem _ mem)
    rw [loseRecords]
    cases owner : p.owner with
    | none => exact ih s later
    | some i =>
      have liveI := live p List.mem_cons_self i owner
      have lost : TablesKept s (s.setSession i { s.session i with lost := satInc (s.session i).lost }) :=
        tablesKept_setSession s i _ ⟨id, fun empty => absurd (by rw [empty]) liveI, rfl, rfl, rfl, id⟩
      refine lost.trans (ih _ fun q mem k named => ?_)
      rw [State.session_setSession]
      split
      next own => exact liveI
      next => exact later q mem k named

theorem ringBreaks_tablesAgree (q : ReportRingId) {s : State} (agree : s.TablesAgree) : (ringBreaks q s).TablesAgree := by
  have live (p : Placed) (unwritten : p ∈ (s.reportRing q).unwritten) (k : SessionId) (owner : p.owner = some k) :
      (s.session k).state ≠ .free := by
    have reports := agree.2.2.1 q k (.inr ⟨p, unwritten, owner⟩)
    exact agree.1.live fun empty => by rw [empty] at reports; cases reports
  have lost := loseRecords_tablesKept (s.reportRing q).unwritten s live
  have broke := lost.trans (tablesKept_setReportRing _ q
    ((loseRecords (s.reportRing q).unwritten s).reportRing q).broke fun k held => by
      rcases held with ⟨_, parked, _⟩ | ⟨_, placed, _⟩
      · cases parked
      · cases placed)
  unfold ringBreaks
  dsimp only
  split
  · exact (broke.tablesAgree agree).congr rfl rfl rfl
  · exact (broke.trans (tablesKept_postRingNotice _ _ _)).tablesAgree agree

/-! ### Jobs -/

theorem JobDone.tablesAgree {r : JobRingId} {t u : State} (done : JobDone True r t u) (agree : t.TablesAgree) :
    u.TablesAgree := by
  cases done with
  | effects run => exact run.tablesAgree agree
  | opened k w setup isFree asked passes => exact configure_tablesAgree r k w setup agree isFree asked passes
  | closed k live => exact closeSession_tablesAgree (fun k s => effects_completeWaits k _ s) k agree
  | reportRingMade q base size mode absent room =>
    refine (tablesKept_setReportRing t q _ fun k held => ?_).tablesAgree agree
    rcases held with ⟨_, parked, _⟩ | ⟨_, placed, _⟩
    · cases parked
    · cases placed
  | tuned q mode present => exact (tablesKept_updReportRing t q (·.tuned mode) fun k held => held).tablesAgree agree
  | lineSet l inverted width wide narrow =>
    have set : (t.setLine l { t.line l with inverted, width }).TablesAgree := agree.congr rfl rfl rfl
    exact (setUpLine_effects (guard := True) l inverted width t).tablesAgree set
  | jobRingMade | jobRingDropped | jobRingRestarted => exact agree.congr rfl rfl rfl

theorem closeAllQuietly_tablesAgree (l : List SessionId) {t : State} (agree : t.TablesAgree) :
    (closeAllQuietly l t).TablesAgree := by
  induction l generalizing t with
  | nil => exact agree
  | cons k rest ih => exact ih (closeSession_tablesAgree (fun _ s => effects_discardWaits _ s) k agree)

theorem forgetReportRing_tablesKept (q : ReportRingId) (s : State) : TablesKept s (forgetReportRing q s) :=
  tablesKept_setReportRing s q {} fun k held => absurd held (ReportRing.holds_default k)

theorem cascadeDropRings_tablesAgree (rings : List JobRingId) {t : State} (agree : t.TablesAgree) :
    (cascadeDropRings rings t).TablesAgree := by
  induction rings generalizing t with
  | nil => exact agree
  | cons j rest ih =>
    obtain ⟨empty, pacing, owned, live⟩ := agree
    refine ih ⟨empty, pacing, owned, fun f inFlight valid orphan => ?_⟩
    obtain ⟨f', before, rfl⟩ := List.mem_map.mp inFlight
    split at orphan
    · cases orphan
    next other =>
      rw [if_neg other] at valid ⊢
      exact live f' before valid orphan

theorem cascade_tablesAgree (q : ReportRingId) (tag : BitVec 16) {t : State} (agree : t.TablesAgree) :
    (cascade q tag t).TablesAgree :=
  ((forgetReportRing_tablesKept q _).trans (tablesKept_answer _ _ _ _ _)).tablesAgree
    (closeAllQuietly_tablesAgree _ (cascadeDropRings_tablesAgree _ agree))

theorem dropUnused_tablesAgree (q : ReportRingId) (tag : BitVec 16) {t : State} (agree : t.TablesAgree) :
    (dropUnused q tag t).TablesAgree :=
  ((forgetReportRing_tablesKept q t).trans (tablesKept_answer _ _ _ _ _)).tablesAgree agree

theorem JobResult.tablesAgree {r : JobRingId} {t u : State} (result : JobResult True r t u) (agree : t.TablesAgree) :
    u.TablesAgree := by
  cases result with
  | answered w a done => exact (tablesKept_answer _ _ _ _ _).tablesAgree (done.tablesAgree agree)
  | fetching k w n mode live few => exact beginFetch_tablesAgree r k w n mode agree live
  | waiting k w cond id live owner room isFree => exact (takeWait_tablesKept r k w cond id t live).tablesAgree agree
  | cascaded q tag control work broken => exact cascade_tablesAgree q tag agree
  | unused q tag control work isOpen noUser => exact dropUnused_tablesAgree q tag agree
  | dropping => exact agree.congr rfl rfl rfl

/-! ### Commands -/

theorem State.TablesAgree.recordArrives {s : State} (agree : s.TablesAgree) (r : JobRingId) :
    (recordArrives r s).TablesAgree := by
  have settled := agree.settle
  rw [recordArrives_eq]
  generalize Machine.settle s = v at settled
  exact settled.congr rfl rfl rfl

theorem qualifiedEdges_tablesAgree (lines : BitVec 16) (order : List Delivery) {s : State} (agree : s.TablesAgree) :
    (qualifiedEdges lines order s).TablesAgree := by
  have accepted : (acceptLines lines allLines s).TablesAgree :=
    agree.congr (by rw [acceptLines_frame]) (by rw [acceptLines_frame]) (by rw [acceptLines_frame])
  exact (effects_handEdges (guard := True) lines order _).tablesAgree accepted

theorem periodPasses_tablesKept (s : State) : TablesKept s (periodPasses s) := by
  refine .of_rings (periodPasses_sessions s) (periodPasses_fetches s) fun q k held => ?_
  rw [periodPasses_reportRing] at held
  exact held

/-- After a reset the tables are empty. -/
theorem reset_tablesAgree {t : State} (sessions : t.sessions = State.reset.sessions)
    (rings : t.reportRings = State.reset.reportRings) (fetches : t.fetches = []) : t.TablesAgree := by
  have entries (k : SessionId) : t.session k = {} :=
    (State.session_congr State.reset t sessions k).trans (State.reset_session k)
  have ring (q : ReportRingId) : t.reportRing q = {} :=
    (State.reportRing_congr State.reset t rings q).trans (State.reset_reportRing q)
  refine ⟨fun k _ => entries k, ⟨fun k _ => by rw [entries], fun k => ?_, fun k f follows => ?_, fun k => ?_⟩,
    fun q k held => ?_, fun f inFlight => ?_⟩
  · rw [entries]
    exact ⟨Nat.zero_le _, .nil⟩
  · rw [entries] at follows
    cases follows
  · rw [entries]
    exact fun g handed => nomatch handed
  · rw [ring] at held
    exact absurd held (ReportRing.holds_default k)
  · rw [fetches] at inFlight
    cases inFlight

theorem StepResult.tablesAgree {s t : State} (result : StepResult True s t) (agree : s.TablesAgree) : t.TablesAgree := by
  have settled := agree.settle
  cases result with
  | events run => exact run.tablesAgree agree
  | edges lines order => exact qualifiedEdges_tablesAgree lines order settled
  | sampled levels order =>
    have sampled : (sampleLines levels allLines (periodPasses s)).TablesAgree :=
      ((periodPasses_tablesKept s).tablesAgree agree).congr (by rw [sampleLines_frame]) (by rw [sampleLines_frame])
        (by rw [sampleLines_frame])
    unfold samplePins
    dsimp only
    split
    · exact sampled
    · exact qualifiedEdges_tablesAgree _ order sampled.settle
  | took c idle chosen =>
    have reserved := tablesKept_updReportRing s (s.jobRing c.ring).bound (fun q => { q with reservations := q.reservations + 1 })
      fun k held => held
    exact (reserved.tablesAgree agree).congr rfl rfl rfl
  | job r reading result => exact result.tablesAgree (agree.recordArrives r)
  | fetchFailed r reading =>
    have ended : ({ s with taking := none } : State).TablesAgree := agree.congr rfl rfl rfl
    have returned := (tablesKept_returnReservation (s.jobRing r).bound { s with taking := none }).tablesAgree ended
    have broken (v : State) (h : v.TablesAgree) : (v.updJobRing r (fun j => { j with state := .broken })).TablesAgree :=
      h.congr rfl rfl rfl
    exact (tablesKept_postRingNotice _ _ _).tablesAgree (broken _ returned)
  | dropEnded j q tag waits =>
    have ended : ({ s with taking := none } : State).TablesAgree := agree.congr rfl rfl rfl
    unfold finishDrop
    split
    · exact cascade_tablesAgree q tag ended.settle
    · exact dropUnused_tablesAgree q tag ended.settle
  | fetched n f entries found whole =>
    have inFlight : f ∈ (settle s).fetches := by
      rw [(eventFrame_settle s).fetches]
      exact List.mem_of_getElem? found
    exact endFetch_tablesAgree n f ((fetchDone_tablesKept f entries settled inFlight).tablesAgree settled)
  | fetchBroke n f entry found =>
    exact endFetch_tablesAgree n f ((fetchFailed_tablesKept f entry _).tablesAgree settled)
  | batchExpired q expired =>
    exact ((tablesKept_updReportRing s q ReportRing.restartBatch fun k held => held).tablesAgree agree).congr rfl rfl rfl
  | strayEnded q lands =>
    unfold endStray
    split <;> exact agree.congr rfl rfl rfl
  | wrote q p rest oldest =>
    obtain ⟨n, timer, bits, written⟩ := writeDone_eq q p rest s
    have fewer := tablesKept_setReportRing s q
      { s.reportRing q with unwritten := rest, unnotified := n, batchTimer := timer } fun k held =>
        held.of_subset (List.Subset.refl _) (by rw [oldest]; exact List.subset_cons_self p rest)
    exact (fewer.tablesAgree agree).congr (by rw [written]) (by rw [written]) (by rw [written])
  | broke q underWay => exact ringBreaks_tablesAgree q agree
  | posted word =>
    unfold postWrite
    repeat' split
    all_goals exact agree.congr rfl rfl rfl
  | released word =>
    unfold releaseWrite
    split
    · exact agree.congr rfl rfl rfl
    next q _ =>
      split
      · refine (tablesKept_setReportRing s q _ fun k held => ?_).tablesAgree agree
        unfold ReportRing.released at held
        dsimp only at held
        split at held
        · exact held.drain
        · exact held
      · exact agree.congr rfl rfl rfl
  | startedUp intEnable sound idle absent =>
    unfold startPart
    split
    · have made := tablesKept_setReportRing s 0 (madeReportRing s.rr0Base s.crRr0Size.toNat .each) fun k held => by
        rcases held with ⟨_, parked, _⟩ | ⟨_, placed, _⟩
        · cases parked
        · cases placed
      exact (made.tablesAgree agree).congr rfl rfl rfl
    · exact agree.congr rfl rfl rfl
  | resetRose levels phase =>
    have rose : ({ s with phase } : State).TablesAgree := agree.congr rfl rfl rfl
    exact rose.congr (by rw [firstSamples_frame]) (by rw [firstSamples_frame]) (by rw [firstSamples_frame])
  | engineReset intEnable => exact reset_tablesAgree rfl rfl rfl
  | hardwareReset => exact reset_tablesAgree rfl rfl rfl
  | registers | ran => exact agree.congr rfl rfl rfl

/-- Settles O8: every form of a command's effect keeps the tables in agreement. -/
theorem pacingAndFreeEntriesKept : Obligations.PacingAndFreeEntriesKept := by
  unfold Obligations.PacingAndFreeEntriesKept
  intro s t before stepped
  exact step_keeps (P := State.TablesAgree) True (fun _ agree _ => agree.1) (fun _ _ h => h)
    (fun _ _ h form => form.tablesAgree h) before stepped

end Sys2Proof.Machine

/-!
PROOFS. A close step by step: its marks are taken, its followers released, and the session leaves (R16, R17, R19, R89, R91 to R93).
-/

namespace Sys2Proof.Machine

/-! ### The states that a close goes through -/

/-- Wait lists and pool agree, the tables agree, and no window end is noted. -/
structure State.Orderly (s : State) : Prop where
  waits : s.WaitsAgree
  tables : s.TablesAgree
  settled : s.settled

theorem orderly_recordArrives (r : JobRingId) {s : State} (waits : s.WaitsAgree) (tables : s.TablesAgree) :
    (recordArrives r s).Orderly := by
  have settled := settle_settled s waits
  have arrived (v : State) (h : v.settled) :
      ({ v.setJobRing r (v.jobRing r).advance with taking := none } : State).settled := h
  refine ⟨waits.recordArrives r, tables.recordArrives r, ?_⟩
  rw [recordArrives_eq]
  exact arrived _ settled

/-! ### A mark that is taken (R44, R87) -/

theorem actOnMark_kept (f : SessionId) {s : State} (waits : s.WaitsAgree) :
    RecordFrame s (actOnMark f s) ∧ OtherSessionsKept f s (actOnMark f s) ∧
      ((s.session f).windowEndDue = false → ((actOnMark f s).session f).windowEndDue = false) := by
  by_cases active : (s.session f).state = .active
  · by_cases window : (s.session f).windowOpen = true
    · rw [actOnMark_of_window f s active window]
      obtain ⟨frame, others, entry, -⟩ := windowEnd_endsAWindow f s waits
      exact ⟨frame, others, fun _ => by rw [entry]⟩
    · rw [actOnMark_of_no_window f s active (Bool.eq_false_iff.mpr window)]
      refine ⟨rfl, fun j other => State.session_setSession_ne s f j _ other, fun due => ?_⟩
      rw [State.session_setSession_same]
      exact due
  · rw [actOnMark_of_inactive f s active]
    exact ⟨rfl, fun _ _ => rfl, id⟩

/-- Taking a mark changes the follower, and the marks still out of its pacer. -/
theorem takeMark_kept (f : SessionId) {s : State} (waits : s.WaitsAgree) :
    RecordFrame s (takeMark f s) ∧
      (∀ j, j ≠ f → (s.session f).pacer ≠ some j → (takeMark f s).session j = s.session j) ∧
      (s.settled → (takeMark f s).settled) := by
  cases pacer : (s.session f).pacer with
  | none =>
    rw [takeMark_no_pacer f s pacer]
    exact ⟨rfl, fun _ _ _ => rfl, id⟩
  | some p =>
    cases after : marksAfter f (s.session p).marksOut with
    | none =>
      rw [takeMark_of_none f p s pacer after]
      exact ⟨rfl, fun _ _ _ => rfl, id⟩
    | some out =>
      rw [takeMark_of_marksAfter f p s out pacer after]
      have handed : (s.setSession p { s.session p with marksOut := out }).WaitsAgree :=
        waits.updSession p (fun x => { x with marksOut := out }) (fun _ => rfl) (fun _ => rfl)
      have entry (j : SessionId) := State.session_setSession s p j { s.session p with marksOut := out }
      have first : RecordFrame s (s.setSession p { s.session p with marksOut := out }) := rfl
      generalize s.setSession p { s.session p with marksOut := out } = v at handed entry first ⊢
      obtain ⟨frame, others, due⟩ := actOnMark_kept f handed
      have noted (settled : s.settled) (j : SessionId) : (v.session j).windowEndDue = false := by
        rw [entry]
        split
        · exact settled p
        · exact settled j
      refine ⟨first.trans frame, fun j other notPacer => ?_, fun settled j => ?_⟩
      · rw [others j other, entry, if_neg fun same => notPacer (by rw [same])]
      · by_cases own : j = f
        · exact own ▸ due (noted settled f)
        · rw [others j own]
          exact noted settled j

theorem State.Orderly.takeMark {s : State} (orderly : s.Orderly) (f : SessionId) : (takeMark f s).Orderly :=
  ⟨(effects_takeMark (guard := False) f s).waitsAgree orderly.waits, (effects_takeMark f s).tablesAgree orderly.tables,
    (takeMark_kept f orderly.waits).2.2 orderly.settled⟩

theorem takeMarks_marksTaken (l : List SessionId) {s : State} (orderly : s.Orderly) :
    MarksTaken l s (takeMarks l s) ∧ (takeMarks l s).Orderly ∧ RecordFrame s (takeMarks l s) ∧
      ∀ j, j ∉ l → (∀ f ∈ l, (s.session f).pacer ≠ some j) → (takeMarks l s).session j = s.session j := by
  induction l generalizing s with
  | nil => exact ⟨rfl, orderly, rfl, fun _ _ _ => rfl⟩
  | cons f rest ih =>
    have runs : exec (.paceMark f) s = .next (Machine.takeMark f s) := by
      rw [exec_paceMark, settle_of_settled s orderly.settled]
    obtain ⟨first, others, -⟩ := takeMark_kept f orderly.waits
    obtain ⟨taken, after, frame, later⟩ := ih (orderly.takeMark f)
    refine ⟨⟨_, runs, taken⟩, after, first.trans frame, fun j unlisted notPacer => ?_⟩
    have same := others j (fun own => unlisted (own ▸ List.mem_cons_self)) (notPacer f List.mem_cons_self)
    refine (later j (fun mem => unlisted (List.mem_cons_of_mem _ mem)) fun g mem => ?_).trans same
    rw [((effects_takeMark f s).ties g).1]
    exact notPacer g (List.mem_cons_of_mem _ mem)

/-! ### A follower is released (R92, R93) -/

theorem unlinked_waitsAgree (p f : SessionId) {s : State} (waits : s.WaitsAgree) : (unlinked p f s).WaitsAgree := by
  have released := effects_mild s f Session.releasedFromPacer (mild_releasedFromPacer _)
  exact (released.trans (effects_mild _ p (fun e => { e with followers := e.followers.erase f })
    (mild_links _ _ _ _))).waitsAgree waits

theorem releaseFollower_released (p f : SessionId) {s : State} (waits : s.WaitsAgree) (other : f ≠ p) :
    Released p f s (releaseFollower p f s) := by
  have entry (j : SessionId) := unlinked_session p f j s other
  have own : (unlinked p f s).session f = (s.session f).releasedFromPacer := by
    rw [entry, if_neg other, if_pos rfl]
  have linked : EventFrame s (unlinked p f s) := rfl
  have list : ((unlinked p f s).session f).waits = (s.session f).waits := by rw [own, Session.releasedFromPacer_eq]
  have pool (x : WaitId) : (unlinked p f s).wait x = s.wait x := rfl
  have rings (q : ReportRingId) : (unlinked p f s).reportRing q = s.reportRing q := rfl
  have frame1 : RecordFrame s (unlinked p f s) := rfl
  obtain ⟨frame, others, session, ended, records⟩ :=
    completeWaits_since (WaitCond.endedIdle .pacerLost) f (unlinked_waitsAgree p f waits) linked list pool
  rw [endedIdle_eq_idleEnds] at session ended records
  rw [keptWaits_eq_nil _ f s waits (idleEnds_isSome _)] at session
  rw [releaseFollower_eq]
  generalize unlinked p f s = v at own rings frame1 frame others session ended records entry ⊢
  generalize completeWaits f (WaitCond.endedIdle .pacerLost) v = u at frame others session ended records ⊢
  obtain ⟨posted, sessions⟩ := postRecord_eq f .notice .pacerLost 0 p.val {} u
  have kept : TableFrame u (postRecord f .notice .pacerLost 0 p.val {} u) := tableFrame_postRecord f _ _ _ _ _ u
  have notice : nextRecord f .notice .pacerLost 0 p.val {} u = nextRecord f .notice .pacerLost 0 p.val {} s := by
    rw [nextRecord, nextRecord, session, own, Session.releasedFromPacer_eq, (frame1.trans frame).stamp]
  have count : (v.session f).count = (s.session f).count := by rw [own, Session.releasedFromPacer_eq]
  rw [count] at records
  have handed (q : ReportRingId) : u.reportRing q =
      handedRing (waitRecords (idleEnds .pacerLost) f (s.session f).count s) q (s.reportRing q) := by
    rw [records q, rings]
  have reports : (u.session f).reportRing = (s.session f).reportRing ∧ (u.session f).lost = (s.session f).lost ∧
      (u.session f).seq = (s.session f).seq := by
    rw [session, own, Session.releasedFromPacer_eq]
    exact ⟨rfl, rfl, rfl⟩
  have offered (rec : ReportRecord) (q : ReportRingId) (x : ReportRing) :
      offeredRing f (u.session f) rec q x = offeredRing f (s.session f) rec q x := by
    rw [offeredRing, offeredRing, reports.1]
  have lost (rec : ReportRecord) : lostAfterOffer f (u.session f) rec u.reportRing =
      lostAfterOffer f (s.session f) rec fun q =>
        handedRing (waitRecords (idleEnds .pacerLost) f (s.session f).count s) q (s.reportRing q) := by
    rw [lostAfterOffer, lostAfterOffer, reports.1, reports.2.1, funext handed]
  rw [notice] at posted sessions
  have whole := (frame1.trans frame).trans kept.recordFrame
  refine ⟨?_, ?_, ?_, fun j notF notP => ?_, fun x => ?_, fun q => ?_⟩
  · exact whole
  · rw [sessions, if_pos rfl, lost, session, own, Session.releasedFromPacer_eq]
    simp only [decide_eq_true_eq]
  · rw [sessions, if_neg (Ne.symm other), others p (Ne.symm other), entry, if_pos rfl]
  · rw [sessions, if_neg notF, others j notF, entry, if_neg notP, if_neg notF]
  · rw [kept.wait]
    exact ended x
  · rw [posted, offered, handed]

end Sys2Proof.Machine

/-!
PROOFS. The release of all followers, the leaving of a session, and with them CLOSE (R15 to R17, R91, R92).
-/

namespace Sys2Proof.Machine

/-! ### All followers are released (R92) -/

theorem State.Orderly.releaseFollower {s : State} (orderly : s.Orderly) (p f : SessionId)
    (follows : f ∈ (s.session p).followers) (noMarks : (s.session p).marksOut = []) : (releaseFollower p f s).Orderly := by
  have other := orderly.tables.2.1.follower_ne follows
  obtain ⟨-, own, pacer, others, -⟩ := releaseFollower_released p f orderly.waits other
  refine ⟨(effects_releaseFollower p f s).waitsAgree orderly.waits,
    releaseFollower_tablesAgree orderly.tables p f follows noMarks, fun j => ?_⟩
  by_cases isF : j = f
  · rw [isF, own]
    exact orderly.settled f
  · by_cases isP : j = p
    · rw [isP, pacer]
      exact orderly.settled p
    · rw [others j isF isP]
      exact orderly.settled j

/-- What the release of every follower leaves. -/
structure AllReleased (p : SessionId) (l : List SessionId) (s u : State) : Prop where
  inOrder : ReleasedInOrder p l s u
  orderly : u.Orderly
  frame : RecordFrame s u
  pacer : u.session p = { s.session p with followers := [] }
  others : ∀ j, j ∉ l → j ≠ p → u.session j = s.session j
  released : ∀ f ∈ l, (u.session f).pacer = none ∧ (u.session f).state ≠ .active ∧ (u.session f).waits = []

theorem Released.ended {p f : SessionId} {s u : State} (released : Released p f s u) :
    (u.session f).pacer = none ∧ (u.session f).state ≠ .active ∧ (u.session f).waits = [] := by
  obtain ⟨-, own, -⟩ := released
  rw [own]
  refine ⟨rfl, ?_, rfl⟩
  dsimp only
  split
  · nofun
  next inactive => simpa using inactive

theorem Session.of_no_followers {e : Session} (unfollowed : e.followers = []) : e = { e with followers := [] } := by
  rw [← unfollowed]

theorem releaseFollowers_allReleased (p : SessionId) (l : List SessionId) {s : State} (orderly : s.Orderly)
    (all : (s.session p).followers = l) (noMarks : (s.session p).marksOut = []) :
    AllReleased p l s (releaseFollowers p l s) := by
  induction l generalizing s with
  | nil => exact ⟨rfl, orderly, rfl, Session.of_no_followers all, fun _ _ _ => rfl, nofun⟩
  | cons f rest ih =>
    have follows : f ∈ (s.session p).followers := by rw [all]; exact List.mem_cons_self
    have distinct : (f :: rest).Nodup := all ▸ (orderly.tables.2.1.2.1 p).2
    have other := orderly.tables.2.1.follower_ne follows
    have first := releaseFollower_released p f orderly.waits other
    have next := orderly.releaseFollower p f follows noMarks
    obtain ⟨left, marks⟩ := releaseFollower_pacer orderly.tables p f follows noMarks
    rw [all, List.erase_cons_head] at left
    have later := ih next left marks
    have ended := first.ended
    obtain ⟨frame, own, pacer, others, -⟩ := id first
    have untouched : (releaseFollowers p rest (releaseFollower p f s)).session f = (releaseFollower p f s).session f :=
      later.others f (List.nodup_cons.mp distinct).1 other
    refine ⟨⟨_, first, later.inOrder⟩, later.orderly, RecordFrame.trans frame later.frame, ?_, fun j unlisted notP => ?_,
      fun g listed => ?_⟩
    · exact later.pacer.trans (by rw [pacer])
    · exact (later.others j (fun mem => unlisted (List.mem_cons_of_mem _ mem)) notP).trans
        (others j (fun own => unlisted (own ▸ List.mem_cons_self)) notP)
    · rcases List.mem_cons.mp listed with rfl | mem
      · exact untouched.symm ▸ ended
      · exact later.released g mem

/-! ### The session leaves (R16, R17, R91) -/

theorem leavePacer_session (k j : SessionId) (s : State) :
    ((leavePacer k s).session k).waits = (s.session k).waits ∧ ((leavePacer k s).session k).count = (s.session k).count ∧
      ((leavePacer k s).session k).reportRing = (s.session k).reportRing ∧
      (j ≠ k → (leavePacer k s).session j =
        if (s.session k).pacer = some j then (s.session j).withoutFollower k else s.session j) := by
  cases paced : (s.session k).pacer with
  | none =>
    have same : leavePacer k s = s := by simp only [leavePacer, paced]
    rw [same]
    exact ⟨rfl, rfl, rfl, fun _ => rfl⟩
  | some p =>
    have eq := leavePacer_eq k p s paced
    have entry (i : SessionId) := State.session_setSession s p i ((s.session p).withoutFollower k)
    dsimp only at eq
    generalize s.setSession p ((s.session p).withoutFollower k) = v at eq entry
    have own : v.session k = if k = p then (s.session p).withoutFollower k else s.session k := entry k
    have fields : (v.session k).waits = (s.session k).waits ∧ (v.session k).count = (s.session k).count ∧
        (v.session k).reportRing = (s.session k).reportRing := by
      rw [own]
      split
      next isP => rw [isP]; exact ⟨rfl, rfl, rfl⟩
      next => exact ⟨rfl, rfl, rfl⟩
    rw [eq, State.session_setSession_same]
    refine ⟨fields.1, fields.2.1, fields.2.2, fun other => ?_⟩
    rw [State.session_setSession_ne _ _ _ _ other, entry]
    by_cases isP : j = p
    · subst isP
      rw [if_pos rfl, if_pos rfl]
    · rw [if_neg isP, if_neg fun h => isP (Option.some.inj h).symm]

theorem leavePacer_frame (k : SessionId) (s : State) : leavePacer k s = { s with sessions := (leavePacer k s).sessions } := by
  unfold leavePacer
  split <;> rfl

theorem leavePacer_waitsAgree (k : SessionId) {s : State} (waits : s.WaitsAgree) : (leavePacer k s).WaitsAgree :=
  (effects_leavePacer k s).waitsAgree waits

/-- The rest of a close once the followers are gone. -/
def leaves (endWaits : SessionId → State → State) (k : SessionId) (v : State) : State := freed k (endWaits k (leavePacer k v))

theorem freed_output (k : SessionId) (v : State) (l : OutputId) :
    (freed k v).output l = if (v.output l).owner = some k then {} else v.output l := by
  have released : (freed k v).outputs = (releaseOutputs k v).outputs := by
    unfold freed purgeSession
    split <;> rfl
  rw [State.output_congr (releaseOutputs k v) (freed k v) released]
  simp only [releaseOutputs, State.output, Fin.getElem_fin, Vector.getElem_map]
  rfl

theorem freed_frame (k : SessionId) (v : State) :
    freed k v = { v with sessions := (freed k v).sessions, outputs := (freed k v).outputs, fetches := (freed k v).fetches,
                         reportRings := (freed k v).reportRings } := by
  unfold freed purgeSession
  split <;> rfl

theorem freed_wait (k : SessionId) (v : State) (x : WaitId) : (freed k v).wait x = v.wait x :=
  State.wait_congr v (freed k v) (by rw [freed_frame]) x

theorem purge_eq (q : ReportRing) (k : SessionId) :
    q.purge k =
      { q with
        store := q.store.filter (fun rec => decide (namedSession rec ≠ some k))
        unwritten := q.unwritten.map (fun x => if x.owner = some k then { x with owner := none } else x) } := by
  rw [ReportRing.purge]
  simp only [ReportRecord.sessionOf_eq_namedSession]

theorem freed_purged (k : SessionId) (q : ReportRingId) (v : State) (e : Session)
    (reports : (v.session k).reportRing = e.reportRing) : (freed k v).reportRing q = purged k e q (v.reportRing q) := by
  rw [freed_reportRing, purge_eq, purged, reports]

/-- What leaving does to the tables, when the waits end at `x` without reaching other sessions' entries. -/
theorem leaves_of_ended (k : SessionId) (v x : State) (frame : RecordFrame (leavePacer k v) x)
    (others : OtherSessionsKept k (leavePacer k v) x) : Leaves k v (freed k x) := by
  have left := leavePacer_frame k v
  have outputs (l : OutputId) : x.output l = v.output l := State.output_congr v x (by rw [frame, left]) l
  have fetches : x.fetches = v.fetches := by rw [frame, left]
  refine ⟨?_, fun j other => ?_, fun l => ?_, ?_⟩
  · rw [freed_session, if_pos rfl]
  · rw [freed_session, if_neg other, others j other, (leavePacer_session k j v).2.2.2 other]
    rfl
  · rw [freed_output, outputs]
  · rw [freed_fetches, fetches]

/-- The close with reports, once the followers are gone. -/
theorem leaves_closeWaits (k : SessionId) {v : State} (waits : v.WaitsAgree) :
    let e := v.session k
    let ends : WaitEntry → Option Status := fun _ => some .sessionClosed
    let u := leaves closeWaits k v
    u = { v with sessions := u.sessions, waits := u.waits, outputs := u.outputs, fetches := u.fetches,
                 reportRings := u.reportRings } ∧
      Leaves k v u ∧ WaitsEnded ends k v u ∧ (∀ x, u.wait x = none ∨ ∃ y, u.wait x = some y ∧ y.session ≠ k) ∧
      ∀ q, u.reportRing q = purged k e q (handedRing (waitRecords ends k e.count v) q (v.reportRing q)) := by
  intro e ends u
  have left := leavePacer_frame k v
  obtain ⟨list, count, reports, -⟩ := leavePacer_session k k v
  have pool (x : WaitId) : (leavePacer k v).wait x = v.wait x := State.wait_congr v _ (by rw [left]) x
  have rings (q : ReportRingId) : (leavePacer k v).reportRing q = v.reportRing q := State.reportRing_congr v _ (by rw [left]) q
  have linked : EventFrame v (leavePacer k v) := by
    unfold EventFrame
    rw [left]
  obtain ⟨frame, others, session, ended, records⟩ := completeWaits_since (fun _ => some .sessionClosed) k
    (leavePacer_waitsAgree k waits) linked list pool
  have agree : (closeWaits k (leavePacer k v)).WaitsAgree :=
    (effects_closeWaits k _).waitsAgree (leavePacer_waitsAgree k waits)
  have runs : u = freed k (closeWaits k (leavePacer k v)) := rfl
  have noneLeft : ((closeWaits k (leavePacer k v)).session k).waits = [] :=
    closeWaits_endsAll.none_left k _ (leavePacer_waitsAgree k waits)
  have reports' : ((closeWaits k (leavePacer k v)).session k).reportRing = e.reportRing := by
    change ((completeWaits k _ (leavePacer k v)).session k).reportRing = _
    rw [session]
    exact reports
  rw [count] at records
  have frame' : RecordFrame (leavePacer k v) (closeWaits k (leavePacer k v)) := frame
  have others' : OtherSessionsKept k (leavePacer k v) (closeWaits k (leavePacer k v)) := others
  have records' : Handed (waitRecords ends k e.count v) (leavePacer k v) (closeWaits k (leavePacer k v)) := records
  have ended' : WaitsEnded ends k v (closeWaits k (leavePacer k v)) := ended
  rw [runs]
  generalize closeWaits k (leavePacer k v) = x at frame' others' records' ended' agree noneLeft reports'
  refine ⟨?_, leaves_of_ended k v x frame' others', fun y => ?_, fun y => ?_, fun q => ?_⟩
  · rw [freed_frame, frame', left]
  · rw [freed_wait]
    exact ended' y
  · rw [freed_wait]
    cases found : x.wait y with
    | none => exact .inl rfl
    | some z =>
      refine .inr ⟨z, rfl, fun own => ?_⟩
      have listed := (agree.1 k y).mpr ⟨z, found, own⟩
      rw [noneLeft] at listed
      cases listed
  · rw [freed_purged k q x e reports', records' q, rings]

end Sys2Proof.Machine

/-!
PROOFS. CLOSE: of a session without followers, and of a pacer (R15 to R17, R89, R91, R92).
-/

namespace Sys2Proof.Machine

/-! ### The followers of a session that closes (R89, R92) -/

/-- The state of a close once the followers are gone. -/
def unfollowed (k : SessionId) (t : State) : State :=
  releaseFollowers k ((flushMarks k t).session k).followers (flushMarks k t)

theorem closeSession_eq_leaves_unfollowed (endWaits : SessionId → State → State) (k : SessionId) (t : State) :
    closeSession endWaits k t = leaves endWaits k (unfollowed k t) := rfl

/-- What the going of its followers leaves of a session that closes, and of the others. -/
structure FollowersGone (k : SessionId) (t marked v : State) : Prop where
  marks : MarksTaken (t.session k).marksOut.flatten t marked
  releases : ReleasedInOrder k (t.session k).followers marked v
  orderly : v.Orderly
  frame : RecordFrame t v
  alone : (v.session k).followers = []
  pacer : (v.session k).pacer = (t.session k).pacer
  others : ∀ j, j ≠ k → j ∉ (t.session k).followers → v.session j = t.session j
  released : ∀ f ∈ (t.session k).followers,
    (v.session f).pacer = none ∧ (v.session f).state ≠ .active ∧ (v.session f).waits = []

theorem followersGone (k : SessionId) {t : State} (orderly : t.Orderly) :
    FollowersGone k t (flushMarks k t) (unfollowed k t) := by
  obtain ⟨taken, after, frame, others⟩ := takeMarks_marksTaken (t.session k).marksOut.flatten orderly
  obtain ⟨pacer, followers, -⟩ := (effects_flushMarks k t).ties k
  have released := releaseFollowers_allReleased k _ after rfl (flushMarks_marksOut orderly.tables k)
  have sound := orderly.tables.2.1
  have handed (f : SessionId) (mem : f ∈ (t.session k).marksOut.flatten) : f ∈ (t.session k).followers := by
    obtain ⟨g, out, listed⟩ := List.mem_flatten.mp mem
    exact (sound.2.2.2 k g out).2.subset listed
  refine ⟨taken, ?_, released.orderly, frame.trans released.frame, ?_, ?_, fun j other unlisted => ?_, ?_⟩
  · rw [← followers]
    exact released.inOrder
  · exact congrArg Session.followers released.pacer
  · exact (congrArg Session.pacer released.pacer).trans pacer
  · refine (released.others j ?_ other).trans (others j (fun mem => unlisted (handed j mem)) fun f mem paced => ?_)
    · exact followers.symm ▸ unlisted
    · have own := sound.2.2.1 k f (handed f mem)
      rw [paced] at own
      exact other (Option.some.inj own)
  · rw [← followers]
    exact released.released

/-- A session without followers has none to release. -/
theorem unfollowed_of_alone (k : SessionId) {t : State} (sound : t.PacingSound) (alone : (t.session k).followers = []) :
    unfollowed k t = t := by
  have flushed : flushMarks k t = t := by
    unfold flushMarks
    rw [sound.no_marks alone]
    rfl
  rw [unfollowed, flushed, alone]
  rfl

/-! ### The close and its own record (R16) -/

theorem reply_closedWith (r : JobRingId) (k : SessionId) (w : JobRecord) (n : Nat) {t v : State} (waits : v.WaitsAgree)
    (frame : RecordFrame t v) :
    let u := reply r w .success n (leaves closeWaits k v)
    ClosedWith k ((t.jobRing r).bound, ownRecord r w.tag .success w.session (toWord n) {} t) v u ∧
      HaltedBy .success r t u := by
  obtain ⟨whole, left, ended, gone, records⟩ := leaves_closeWaits k waits
  have clock : (leaves closeWaits k v).stamp = t.stamp ∧ ∀ j, (leaves closeWaits k v).jobRing j = t.jobRing j := by
    refine ⟨by rw [whole, frame], fun j => State.jobRing_congr t _ ?_ j⟩
    rw [whole, frame]
  generalize leaves closeWaits k v = x at whole left ended gone records clock
  have rings : OnlyRings x (reply r w .success n x) := answer_onlyRings _ _ _ _ _
  obtain ⟨last, halted⟩ := answerNow_answered r w .success w.session (toWord n) {} x
  have own : ownRecord r w.tag .success w.session (toWord n) {} x = ownRecord r w.tag .success w.session (toWord n) {} t := by
    simp only [ownRecord, clock.1, clock.2]
  have session (j : SessionId) : (reply r w .success n x).session j = x.session j := answer_session _ _ _ _ _ j
  have wait (y : WaitId) : (reply r w .success n x).wait y = x.wait y := answer_wait _ _ _ _ _ y
  have output (l : OutputId) : (reply r w .success n x).output l = x.output l := State.output_congr x _ (by rw [rings]) l
  have fetches : (reply r w .success n x).fetches = x.fetches := by rw [rings]
  refine ⟨⟨?_, ⟨?_, fun j other => ?_, fun l => ?_, ?_⟩, fun y => ?_, fun y => ?_, fun q => ?_⟩, fun j => ?_⟩
  · rw [rings, whole]
  · rw [session]
    exact left.1
  · rw [session]
    exact left.2.1 j other
  · rw [output]
    exact left.2.2.1 l
  · rw [fetches]
    exact left.2.2.2
  · rw [wait]
    exact ended y
  · rw [wait]
    exact gone y
  · rw [← records q, ← own, ← clock.2 r]
    exact last q
  · have answered := halted j
    simp only [clock.2] at answered
    exact answered

theorem exec_closeJob (w : JobRecord) (s : State) (r : JobRingId) (k : SessionId) (reaches : JobReaches w r k s) :
    exec (.closeJob w) s = .next (closeBody r k w (recordArrives r s)) :=
  congrArg Host.Outcome.next (withTaken_workJob closeBody w s r k reaches)

theorem closeBody_of_alone (r : JobRingId) (k : SessionId) (w : JobRecord) (t : State)
    (alone : (t.session k).followers = []) :
    closeBody r k w t = reply r w .success 0 (closeSession closeWaits k t) := by
  rw [closeBody, alone]
  exact if_neg fun bound => bound.1 rfl

theorem closeBody_of_bound (r : JobRingId) (k : SessionId) (w : JobRecord) (t : State)
    (followed : (t.session k).followers ≠ []) (unforced : w.flag 0 = false) :
    closeBody r k w t = reply r w .bound (t.session k).followers.length t :=
  if_pos ⟨fun none => followed (List.length_eq_zero_iff.mp none), unforced⟩

theorem closeBody_of_forced (r : JobRingId) (k : SessionId) (w : JobRecord) (t : State) (forced : w.flag 0 = true) :
    closeBody r k w t = reply r w .success (t.session k).followers.length (closeSession closeWaits k t) :=
  if_neg fun bound => Bool.false_ne_true (bound.2.symm.trans forced)

/-- Settles O18: without followers nothing is released, and the close is the leaving of the session. -/
theorem closeFreesTheSession : Obligations.CloseFreesTheSession := by
  unfold Obligations.CloseFreesTheSession
  intro w s r k reaches waits tables t alone
  have orderly : t.Orderly := orderly_recordArrives r waits tables
  have runs : exec (.closeJob w) s = .next (closeBody r k w t) := exec_closeJob w s r k reaches
  clear_value t
  rw [runs, closeBody_of_alone r k w t alone, closeSession_eq_leaves_unfollowed,
    unfollowed_of_alone k orderly.tables.2.1 alone]
  exact ⟨_, rfl, reply_closedWith r k w 0 orderly.waits (.refl t)⟩

/-- Settles O19: the refusal, and the close of a pacer by way of its marks and its followers. -/
theorem closeOfAPacer : Obligations.CloseOfAPacer := by
  unfold Obligations.CloseOfAPacer
  intro w s r k reaches waits tables t followers own followed
  have orderly : t.Orderly := orderly_recordArrives r waits tables
  have runs : exec (.closeJob w) s = .next (closeBody r k w t) := exec_closeJob w s r k reaches
  clear_value t
  rw [runs]
  refine ⟨fun unforced => ?_, fun forced => ?_⟩
  · rw [closeBody_of_bound r k w t followed unforced]
    exact reply_refused r w .bound _ t rfl
  · rw [closeBody_of_forced r k w t forced, closeSession_eq_leaves_unfollowed]
    have gone := followersGone k orderly
    obtain ⟨f, follows⟩ := List.exists_mem_of_ne_nil _ followed
    have unpaced : ((unfollowed k t).session k).pacer = none :=
      gone.pacer.trans (orderly.tables.2.1.pacer_unpaced follows)
    obtain ⟨closed, halted⟩ := reply_closedWith r k w followers.length gone.orderly.waits gone.frame
    refine ⟨_, rfl, _, _, gone.marks, gone.releases, closed, halted, ?_⟩
    obtain ⟨whole, ⟨free, others, outputs, -⟩, -⟩ := closed
    generalize reply r w .success followers.length (leaves closeWaits k (unfollowed k t)) = u at whole free others outputs ⊢
    have kept (j : SessionId) (other : j ≠ k) : u.session j = (unfollowed k t).session j := by
      have notPacer : ((unfollowed k t).session k).pacer ≠ some j := by rw [unpaced]; nofun
      rw [others j other, if_neg notPacer]
    refine ⟨free, by rw [whole, gone.frame], by rw [whole, gone.frame], fun l => ?_, fun j other unlisted => ?_,
      fun g listed => ?_⟩
    · have same : (unfollowed k t).output l = t.output l := State.output_congr t _ (by rw [gone.frame]) l
      rw [outputs, same]
    · rw [kept j other]
      exact gone.others j other unlisted
    · rw [kept g (orderly.tables.2.1.follower_ne listed)]
      exact gone.released g listed

end Sys2Proof.Machine

/-!
PROOFS. The close without reports, and the close of a list of sessions (R19, R157).
-/

namespace Sys2Proof.Machine

/-! ### Waits are freed and never move (R97, R106) -/

/-- Every wait outstanding in `u` was outstanding in `s`, of the same job. -/
def WaitsComeFrom (s u : State) : Prop :=
  ∀ x e, u.wait x = some e →
    ∃ e', s.wait x = some e' ∧ e'.session = e.session ∧ e'.ring = e.ring ∧ e'.reportRing = e.reportRing

theorem WaitsComeFrom.refl (s : State) : WaitsComeFrom s s := fun _ e found => ⟨e, found, rfl, rfl, rfl⟩

theorem WaitsComeFrom.trans {s t u : State} (first : WaitsComeFrom s t) (next : WaitsComeFrom t u) : WaitsComeFrom s u := by
  intro x e found
  obtain ⟨e', middle, session', ring', report'⟩ := next x e found
  obtain ⟨e'', before, session, ring, report⟩ := first x e' middle
  exact ⟨e'', before, session.trans session', ring.trans ring', report.trans report'⟩

theorem WaitsComeFrom.of_kept {s u : State} (kept : ∀ x, u.wait x = s.wait x) : WaitsComeFrom s u :=
  fun x e found => ⟨e, kept x ▸ found, rfl, rfl, rfl⟩

theorem WaitsComeFrom.of_freed {s u : State} {w : WaitId} (pool : ∀ x, u.wait x = if x = w then none else s.wait x) :
    WaitsComeFrom s u := by
  intro x e found
  rw [pool] at found
  split at found
  · cases found
  · exact ⟨e, found, rfl, rfl, rfl⟩

theorem Effect.waitsComeFrom {guard : Prop} {s t : State} (effect : Effect guard s t) : WaitsComeFrom s t := by
  cases effect with
  | post i kind status index value flags live =>
    exact .of_kept fun x => by rw [tableFrame_postRecord i kind status index value flags s |>.wait]
  | entry | marks | taken | output => exact .of_kept fun _ => rfl
  | complete w status stamp => exact .of_freed fun x => completeWaitAt_wait w x status stamp s
  | discard w => exact .of_freed fun x => discardWait_wait w x s
  | lower w e cond found =>
    intro x e' later
    rw [State.wait_setWait] at later
    split at later
    next here =>
      cases later
      exact ⟨e, here ▸ found, rfl, rfl, rfl⟩
    next => exact ⟨e', later, rfl, rfl, rfl⟩

theorem Effects.waitsComeFrom {guard : Prop} {s t : State} (run : Effects guard s t) : WaitsComeFrom s t :=
  run.keep (P := WaitsComeFrom s) (fun _ _ effect before => before.trans effect.waitsComeFrom) (.refl s)

theorem closeSession_waitsComeFrom {endWaits : SessionId → State → State} (ends : ∀ k s, Effects False s (endWaits k s))
    (k : SessionId) (s : State) : WaitsComeFrom s (closeSession endWaits k s) := by
  have last (v : State) : WaitsComeFrom v (freed k v) := .of_kept fun x => freed_wait k v x
  exact (effects_beforeFreed ends k s).waitsComeFrom.trans (last _)

/-! ### The entry of a pacer that did not list the session -/

theorem Session.withoutFollower_of_unlisted {e : Session} {k : SessionId} (marks : MarksFor e.followers e.marksOut)
    (unlisted : k ∉ e.followers) : e.withoutFollower k = e := by
  have groups : ∀ g ∈ e.marksOut, g.filter (· ≠ k) = g := fun g handed =>
    List.filter_eq_self.mpr fun f mem => decide_eq_true fun same => unlisted ((marks g handed).2.subset (same ▸ mem))
  have out : marksWithout k e.marksOut = e.marksOut := by
    rw [marksWithout, List.map_congr_left groups, List.map_id']
    exact List.filter_eq_self.mpr fun g handed => decide_eq_true (marks g handed).1
  rw [Session.withoutFollower, out, List.erase_of_not_mem unlisted]

/-! ### The close without reports (R19) -/

/-- The waits end by being discarded. -/
theorem leaves_dropWaits (k : SessionId) {v : State} (waits : v.WaitsAgree) :
    let u := leaves dropWaits k v
    u = { v with sessions := u.sessions, waits := u.waits, outputs := u.outputs, fetches := u.fetches,
                 reportRings := u.reportRings } ∧
      Leaves k v u ∧ (∀ x, u.wait x = if x ∈ (v.session k).waits then none else v.wait x) ∧
      ∀ q, u.reportRing q =
        purged k (v.session k) q (reservationsReturned ((v.session k).waits.filterMap v.wait) q (v.reportRing q)) := by
  intro u
  have left := leavePacer_frame k v
  obtain ⟨list, -, reports, -⟩ := leavePacer_session k k v
  have pool (x : WaitId) : (leavePacer k v).wait x = v.wait x := State.wait_congr v _ (by rw [left]) x
  have rings (q : ReportRingId) : (leavePacer k v).reportRing q = v.reportRing q := State.reportRing_congr v _ (by rw [left]) q
  have done := dropWaits_discarded k _ (leavePacer_waitsAgree k waits)
  obtain ⟨frame, others, session, wait, records⟩ := done
  rw [list] at wait records
  rw [funext pool] at records
  have reports' : ((dropWaits k (leavePacer k v)).session k).reportRing = (v.session k).reportRing := by
    rw [session]
    exact reports
  have runs : u = freed k (dropWaits k (leavePacer k v)) := rfl
  rw [runs]
  generalize dropWaits k (leavePacer k v) = x at frame others wait records reports'
  refine ⟨?_, leaves_of_ended k v x frame others, fun y => ?_, fun q => ?_⟩
  · rw [freed_frame, frame, left]
  · rw [freed_wait, wait, pool]
  · rw [freed_purged k q x _ reports', records, rings]

/-- What the close without reports of one session leaves. -/
structure QuietClose (k : SessionId) (s u : State) : Prop where
  closed : ClosedQuietly k s u
  orderly : u.Orderly
  own : u.session k = {}
  others : ∀ j, j ≠ k → (s.session j).pacer ≠ some k → k ∉ (s.session j).followers → u.session j = s.session j
  output : ∀ l, u.output l = if (s.output l).owner = some k then {} else s.output l
  fetches : ∀ f ∈ u.fetches, ∃ g ∈ s.fetches, f.ring = g.ring ∧ f.orphan = g.orphan

theorem Leaves.noted {k : SessionId} {v u : State} (left : Leaves k v u) (settled : v.settled) : u.settled := by
  obtain ⟨own, others, -⟩ := left
  intro j
  by_cases isK : j = k
  · rw [isK, own]
  · rw [others j isK]
    split
    · exact settled j
    · exact settled j

theorem Leaves.kept {k j : SessionId} {v u : State} (left : Leaves k v u) (sound : v.PacingSound) (other : j ≠ k)
    (unlisted : k ∉ (v.session j).followers) : u.session j = v.session j := by
  have same := Session.withoutFollower_of_unlisted (sound.2.2.2 j) unlisted
  rw [left.2.1 j other]
  split
  · exact same
  · rfl

theorem closeQuietly_quietClose (k : SessionId) {s : State} (orderly : s.Orderly) : QuietClose k s (closeQuietly k s) := by
  have gone := followersGone k orderly
  obtain ⟨whole, left, wait, records⟩ := leaves_dropWaits k gone.orderly.waits
  have waits := dropWaits_endsAll.waitsAgree k orderly.waits
  have tables := closeSession_tablesAgree (endWaits := dropWaits)
    (fun k s => effects_discardWaits (s.session k).waits s) k orderly.tables
  have outputs (l : OutputId) : (unfollowed k s).output l = s.output l := State.output_congr s _ (by rw [gone.frame]) l
  have fetches : (unfollowed k s).fetches = s.fetches := by rw [gone.frame]
  refine ⟨⟨_, _, gone.marks, gone.releases, whole, left, wait, records⟩, ⟨waits, tables, left.noted gone.orderly.settled⟩,
    left.1, fun j other unpaced unlisted => ?_, fun l => ?_, fun f inFlight => ?_⟩
  · have same := gone.others j other fun follows => unpaced (orderly.tables.2.1.2.2.1 k j follows)
    exact (left.kept gone.orderly.tables.2.1 other (same.symm ▸ unlisted)).trans same
  · rw [← outputs]
    exact left.2.2.1 l
  · have mapped : (closeQuietly k s).fetches = _ := left.2.2.2
    rw [mapped, fetches] at inFlight
    obtain ⟨g, before, rfl⟩ := List.mem_map.mp inFlight
    refine ⟨g, before, ?_⟩
    split <;> exact ⟨rfl, rfl⟩

/-! ### The close of a list of sessions (R157) -/

/-- What the close without reports of the sessions of a list leaves. -/
structure QuietCloses (l : List SessionId) (s u : State) : Prop where
  closed : ClosedQuietlyInOrder l s u
  orderly : u.Orderly
  own : ∀ k ∈ l, u.session k = {}
  others : ∀ j, j ∉ l → (∀ p, (s.session j).pacer = some p → p ∉ l) → (∀ f ∈ (s.session j).followers, f ∉ l) →
    u.session j = s.session j
  output : ∀ o, u.output o = if ∃ k ∈ l, (s.output o).owner = some k then {} else s.output o
  fetches : ∀ f ∈ u.fetches, ∃ g ∈ s.fetches, f.ring = g.ring ∧ f.orphan = g.orphan

theorem closeAllQuietly_quietCloses (l : List SessionId) (distinct : l.Nodup) {s : State} (orderly : s.Orderly) :
    QuietCloses l s (closeAllQuietly l s) := by
  induction l generalizing s with
  | nil => exact ⟨rfl, orderly, nofun, fun _ _ _ _ => rfl, fun o => by simp [closeAllQuietly], fun f h => ⟨f, h, rfl, rfl⟩⟩
  | cons k rest ih =>
    obtain ⟨fresh, distinct⟩ := List.nodup_cons.mp distinct
    have first := closeQuietly_quietClose k orderly
    have later := ih distinct first.orderly
    rw [closeAllQuietly]
    generalize closeQuietly k s = v at first later ⊢
    refine ⟨⟨v, first.closed, later.closed⟩, later.orderly, fun j listed => ?_, fun j unlisted unpaced unfollowed => ?_,
      fun o => ?_, fun f inFlight => ?_⟩
    · rcases List.mem_cons.mp listed with rfl | mem
      · rw [later.others j fresh (by rw [first.own]; nofun) (by rw [first.own]; nofun), first.own]
      · exact later.own j mem
    · obtain ⟨other, unlisted⟩ := not_or.mp (mt List.mem_cons.mpr unlisted)
      have same := first.others j other (fun paced => unpaced k paced List.mem_cons_self)
        fun follows => unfollowed k follows List.mem_cons_self
      refine (later.others j unlisted ?_ ?_).trans same
      · rw [same]
        exact fun p paced mem => unpaced p paced (List.mem_cons_of_mem _ mem)
      · rw [same]
        exact fun f follows mem => unfollowed f follows (List.mem_cons_of_mem _ mem)
    · rw [later.output, first.output]
      by_cases owned : (s.output o).owner = some k
      · simp [owned]
      · simp only [List.mem_cons, exists_eq_or_imp, owned, false_or, if_false]
    · obtain ⟨g, middle, ring, orphan⟩ := later.fetches f inFlight
      obtain ⟨g', before, ring', orphan'⟩ := first.fetches g middle
      exact ⟨g', before, ring.trans ring', orphan.trans orphan'⟩

theorem closeAllQuietly_waitsComeFrom (l : List SessionId) (s : State) : WaitsComeFrom s (closeAllQuietly l s) := by
  induction l generalizing s with
  | nil => exact .refl s
  | cons k rest ih => exact (closeSession_waitsComeFrom effects_dropWaits k s).trans (ih _)

end Sys2Proof.Machine

/-!
PROOFS. DROP_REPORT_RING and the cascade of a BROKEN report ring (R156, R157).
-/

namespace Sys2Proof.Machine

/-! ### The uses of a report ring (R156) -/

theorem JobRing.isBoundTo_iff (e : JobRing) (q : ReportRingId) :
    e.isBoundTo q = true ↔ e.state ≠ .absent ∧ e.bound = q := by
  simp [JobRing.isBoundTo]

theorem State.usersOf_eq_usesOf (t : State) (q : ReportRingId) : t.usersOf q = usesOf t q := by
  have bound (j : JobRingId) : (t.jobRing j).isBoundTo q =
      decide ((t.jobRing j).state ≠ .absent ∧ (t.jobRing j).bound = q) := by
    rw [Bool.eq_iff_iff, JobRing.isBoundTo_iff, decide_eq_true_iff]
  rw [State.usersOf, State.boundRings, State.reporters, usesOf, List.countP_eq_length_filter, List.countP_eq_length_filter]
  simp only [bound]
  rfl

/-! ### An unused ring is dropped (R156) -/

theorem handedRing_absent (recs : List (ReportRingId × ReportRecord)) (q : ReportRingId) : handedRing recs q {} = {} := rfl

/-- The answer of a job that has forgotten the report ring. -/
theorem answer_forgetReportRing (q : ReportRingId) (tag : BitVec 16) (value : Nat) (t : State) :
    let s := forgetReportRing q t
    let u := answer 0 (s.jobRing 0).bound tag
      { status := .success, session := noSessionField, value := toWord value, stamp := s.stamp } s
    OnlyRings t u ∧ HaltedBy .success 0 t u ∧
      ∀ i, u.reportRing i =
        handedRing [((t.jobRing 0).bound, ownRecord 0 tag .success 255 (toWord value) {} t)] i
          (if i = q then {} else t.reportRing i) := by
  intro s u
  have rings : OnlyRings s u := answer_onlyRings _ _ _ _ _
  refine ⟨?_, answer_haltedBy 0 _ tag _ s, fun i => ?_⟩
  · unfold OnlyRings
    rw [rings]
    rfl
  · have forgot : s.reportRing i = if i = q then {} else t.reportRing i := State.reportRing_setReportRing t q i {}
    rw [answer_reportRing, forgot]
    rfl

theorem dropUnused_droppedUnused (q : ReportRingId) (tag : BitVec 16) (t : State) :
    DroppedUnused q tag t (dropUnused q tag t) := by
  obtain ⟨rings, halted, records⟩ := answer_forgetReportRing q tag 0 t
  refine ⟨rings, halted, fun i => ?_⟩
  rw [dropUnused]
  refine (records i).trans ?_
  split
  · exact handedRing_absent _ i
  · rfl

/-! ### The cascade (R157) -/

theorem cascadeDropRings_jobRing (rings : List JobRingId) (t : State) (j : JobRingId) :
    (cascadeDropRings rings t).jobRing j = if j ∈ rings then {} else t.jobRing j := by
  induction rings generalizing t with
  | nil => rfl
  | cons i rest ih =>
    have first : (cascadeDropRing i t).jobRing j = if j = i then {} else t.jobRing j := State.jobRing_setJobRing _ i j {}
    rw [cascadeDropRings, ih, first]
    by_cases own : j = i <;> simp [own]

theorem cascadeDropRings_fetches (rings : List JobRingId) (t : State) :
    (cascadeDropRings rings t).fetches =
      t.fetches.map (fun f => if f.ring ∈ rings then { f with orphan := true } else f) := by
  induction rings generalizing t with
  | nil => simp [cascadeDropRings]
  | cons i rest ih =>
    have first : (cascadeDropRing i t).fetches =
        t.fetches.map (fun f => if f.ring = i then { f with orphan := true } else f) := rfl
    rw [cascadeDropRings, ih, first, List.map_map]
    refine List.map_congr_left fun f _ => ?_
    by_cases own : f.ring = i <;> simp [own]

theorem State.mem_boundRings (t : State) (q : ReportRingId) (j : JobRingId) :
    j ∈ t.boundRings q ↔ (t.jobRing j).state ≠ .absent ∧ (t.jobRing j).bound = q := by
  simp only [State.boundRings, List.mem_filter, JobRing.isBoundTo_iff, and_iff_right_iff_imp]
  exact fun _ => List.mem_finRange j

theorem State.mem_cascadeSessions (t : State) (q : ReportRingId) (k : SessionId) :
    k ∈ t.cascadeSessions q (t.boundRings q) ↔
      (∃ j, ((t.jobRing j).state ≠ .absent ∧ (t.jobRing j).bound = q) ∧ (t.session k).owner = some j) ∨
        (t.session k).reportRing = some q := by
  have listed : k ∈ allSessions := List.mem_finRange k
  simp only [State.cascadeSessions, List.mem_filter, listed, true_and, Bool.or_eq_true, Option.any_eq_true, decide_eq_true_eq,
    State.mem_boundRings]
  exact or_congr_left ⟨fun ⟨j, owner, drops⟩ => ⟨j, drops, owner⟩, fun ⟨j, drops, owner⟩ => ⟨j, owner, drops⟩⟩

theorem State.cascadeSessions_ascending (t : State) (q : ReportRingId) (rings : List JobRingId) :
    (t.cascadeSessions q rings).Pairwise (· < ·) := (List.pairwise_lt_finRange 32).filter _

theorem State.Orderly.cascadeDropRings {t : State} (orderly : t.Orderly) (rings : List JobRingId) :
    (cascadeDropRings rings t).Orderly := by
  have sessions : (Machine.cascadeDropRings rings t).sessions = t.sessions := by rw [cascadeDropRings_frame]
  refine ⟨orderly.waits.congr (by rw [cascadeDropRings_frame]) sessions, cascadeDropRings_tablesAgree rings orderly.tables,
    fun j => ?_⟩
  rw [State.session_congr t _ sessions]
  exact orderly.settled j

/-- The cascade before its answer: the job rings are gone, and then the sessions. -/
def cascaded (q : ReportRingId) (t : State) : State :=
  closeAllQuietly (t.cascadeSessions q (t.boundRings q)) (cascadeDropRings (t.boundRings q) t)

theorem cascaded_quietCloses (q : ReportRingId) {t : State} (orderly : t.Orderly) :
    QuietCloses (t.cascadeSessions q (t.boundRings q)) (cascadeDropRings (t.boundRings q) t) (cascaded q t) :=
  closeAllQuietly_quietCloses _ ((t.cascadeSessions_ascending q _).imp fun less => ne_of_lt less)
    (orderly.cascadeDropRings _)

theorem cascade_answered (q : ReportRingId) (tag : BitVec 16) (t : State) :
    OnlyRings (cascaded q t) (cascade q tag t) ∧ HaltedBy .success 0 (cascaded q t) (cascade q tag t) ∧
      ∀ i, (cascade q tag t).reportRing i =
        handedRing [(((cascaded q t).jobRing 0).bound,
            ownRecord 0 tag .success 255 (toWord (t.cascadeSessions q (t.boundRings q)).length) {} (cascaded q t))] i
          (if i = q then {} else (cascaded q t).reportRing i) :=
  answer_forgetReportRing q tag (t.cascadeSessions q (t.boundRings q)).length (cascaded q t)

theorem cascade_cascades (q : ReportRingId) (tag : BitVec 16) {t : State} (orderly : t.Orderly) :
    Cascades q tag t (cascade q tag t) := by
  refine ⟨_, _, _, t.cascadeSessions_ascending q _, t.mem_cascadeSessions q, cascadeDropRings_frame (t.boundRings q) t,
    fun j => ?_, ?_, (cascaded_quietCloses q orderly).closed, cascade_answered q tag t⟩
  · simp only [cascadeDropRings_jobRing, State.mem_boundRings]
  · simp only [cascadeDropRings_fetches, State.mem_boundRings]

/-! ### DROP_REPORT_RING (R156) -/

theorem exec_dropReportRing (w : JobRecord) (s : State) (reaches : ControlReaches s) :
    exec (.dropReportRing w) s = .next (dropReportRingBody w (recordArrives 0 s)) :=
  congrArg Host.Outcome.next (withTaken_controlJob dropReportRingBody w s reaches)

theorem dropReportRingBody_of_badId (w : JobRecord) (t : State) (id : workReportRingOf (w.byte 8) = none) :
    dropReportRingBody w t = replyControl 0 w .badParam 0 t := by
  simp only [dropReportRingBody, id]

section NamedRing

variable (w : JobRecord) (t : State) (q : ReportRingId) (named : workReportRingOf (w.byte 8) = some q)

include named

theorem dropReportRingBody_of_absent (absent : (t.reportRing q).state = .absent) :
    dropReportRingBody w t = replyControl 0 w .noRing 0 t := by
  simp only [dropReportRingBody, named, absent]

theorem dropReportRingBody_of_broken (broken : (t.reportRing q).state = .broken) :
    dropReportRingBody w t = cascade q w.tag t := by
  simp only [dropReportRingBody, named, broken]

theorem dropReportRingBody_of_opened (opened : (t.reportRing q).state = .opened) :
    dropReportRingBody w t =
      if usesOf t q ≠ 0 then replyControl 0 w .inUse (usesOf t q) t
      else if (t.reportRing q).unwritten = [] then dropUnused q w.tag t
      else { t with taking := some { ring := 0, stage := .dropping q w.tag } } := by
  simp only [dropReportRingBody, named, opened, t.usersOf_eq_usesOf]

end NamedRing

/-! ### REPORT_RING_DROPPED (R156) -/

theorem exec_reportRingDropped_of_noDrop (s : State)
    (noDrop : ∀ t, s.taking = some t → ∃ address, t.stage = .reading address) : exec .reportRingDropped s = .next s := by
  refine congrArg Host.Outcome.next ?_
  cases taking : s.taking with
  | none => rfl
  | some t =>
    obtain ⟨address, reading⟩ := noDrop t taking
    simp only [reading]

theorem exec_reportRingDropped_of_unwritten (s : State) (j : JobRingId) (q : ReportRingId) (tag : BitVec 16)
    (waits : s.taking = some { ring := j, stage := .dropping q tag }) (unwritten : (s.reportRing q).unwritten ≠ []) :
    exec .reportRingDropped s = .next s := by
  refine congrArg Host.Outcome.next ?_
  simp only [waits, if_neg unwritten]

/-- Settles O37: the job by the state and the uses of the ring, and the drop that waits. -/
theorem dropReportRingWaitsForItsWrites : Obligations.DropReportRingWaitsForItsWrites := by
  unfold Obligations.DropReportRingWaitsForItsWrites
  refine ⟨fun w s reaches => ?_, exec_reportRingDropped_of_noDrop, fun s j q tag waits => ⟨?_, fun written settled => ?_⟩⟩
  · intro t o id
    have runs : o = .next (dropReportRingBody w t) := exec_dropReportRing w s reaches
    rw [runs]
    clear_value t
    refine ⟨fun badId => ?_, fun q sameId work => ?_⟩
    · rw [dropReportRingBody_of_badId w t (workReportRingOf_eq_none _ badId)]
      exact replyControl_refused 0 w .badParam 0 t rfl
    have named : workReportRingOf (w.byte 8) = some q := (workReportRingOf_eq_some_iff _ q).mpr ⟨sameId, work⟩
    refine ⟨fun absent => ?_, fun opened used => ?_, fun opened unused => ⟨fun written => ?_, fun unwritten => ?_⟩⟩
    · rw [dropReportRingBody_of_absent w t q named absent]
      exact replyControl_refused 0 w .noRing 0 t rfl
    · rw [dropReportRingBody_of_opened w t q named opened, if_pos used]
      exact replyControl_refused 0 w .inUse _ t rfl
    · rw [dropReportRingBody_of_opened w t q named opened, if_neg (not_not.mpr unused), if_pos written]
      exact ⟨_, rfl, dropUnused_droppedUnused q w.tag t⟩
    · rw [dropReportRingBody_of_opened w t q named opened, if_neg (not_not.mpr unused), if_neg unwritten]
  · exact exec_reportRingDropped_of_unwritten s j q tag waits
  · have ended : settle { s with taking := none } = { s with taking := none } :=
      settle_of_settled { s with taking := none } settled
    rw [exec_reportRingDropped s j q tag waits written, ended]
    refine ⟨fun notBroken => ⟨_, congrArg _ (if_neg notBroken), dropUnused_droppedUnused q tag _⟩,
      fun broken agree tables => ⟨_, congrArg _ (if_pos broken), cascade_cascades q tag ⟨?_, ?_, settled⟩⟩⟩
    · exact agree
    · exact tables.congr rfl rfl rfl

/-! ### What follows from the cascade (R19, R157) -/

/-- Settles O38: the cascade, and what its steps leave of the rings, the sessions, the waits and the outputs. -/
theorem cascadeRemovesABrokenRing : Obligations.CascadeRemovesABrokenRing := by
  unfold Obligations.CascadeRemovesABrokenRing
  intro w s q reaches waits tables t drops closes sameId work broken
  have orderly : t.Orderly := orderly_recordArrives 0 waits tables
  have runs : exec (.dropReportRing w) s = .next (dropReportRingBody w t) := exec_dropReportRing w s reaches
  have named : workReportRingOf (w.byte 8) = some q := (workReportRingOf_eq_some_iff _ q).mpr ⟨sameId, work⟩
  clear_value t
  rw [runs, dropReportRingBody_of_broken w t q named broken]
  refine ⟨_, rfl, cascade_cascades q w.tag orderly, ?_⟩
  have closed := cascaded_quietCloses q orderly
  have listed := t.mem_cascadeSessions q
  have frame : CloseFrame (cascadeDropRings (t.boundRings q) t) (cascaded q t) := closeAllQuietly_frame _ _
  have dropped := cascadeDropRings_frame (t.boundRings q) t
  have pool : WaitsComeFrom t (cascaded q t) :=
    (WaitsComeFrom.of_kept (s := t) fun x => State.wait_congr t _ (by rw [dropped]) x).trans
      (closeAllQuietly_waitsComeFrom _ _)
  obtain ⟨rings, halted, records⟩ := cascade_answered q w.tag t
  have session (k : SessionId) : (cascade q w.tag t).session k = (cascaded q t).session k :=
    State.session_congr _ _ (by rw [rings]) k
  have before (k : SessionId) : (cascadeDropRings (t.boundRings q) t).session k = t.session k :=
    State.session_congr _ _ (by rw [dropped]) k
  have owners (l : OutputId) : (cascadeDropRings (t.boundRings q) t).output l = t.output l :=
    State.output_congr _ _ (by rw [dropped]) l
  have output (l : OutputId) : (cascade q w.tag t).output l =
      if ∃ k ∈ t.cascadeSessions q (t.boundRings q), (t.output l).owner = some k then {} else t.output l := by
    rw [State.output_congr (cascaded q t) _ (by rw [rings]) l, closed.output, owners]
  refine ⟨fun j => ?_, ?_, fun k closes => ?_, fun k spared unpaced unfollowed => ?_, fun x e found closes => ?_,
    fun l k owner closes => ?_, fun l others => ?_, fun f inFlight drops => ?_, ?_, ?_⟩
  · rw [(halted j).trans (if_neg fun ⟨_, refusal, _⟩ => nomatch refusal),
      State.jobRing_congr (cascadeDropRings (t.boundRings q) t) (cascaded q t) (by rw [frame]) j, cascadeDropRings_jobRing]
    simp only [State.mem_boundRings, drops]
  · rw [records, if_pos rfl]
    exact handedRing_absent _ q
  · rw [session]
    exact closed.own k ((listed k).mpr closes)
  · rw [session, closed.others k (fun mem => spared ((listed k).mp mem)), before]
    · rw [before]
      exact fun p paced mem => unpaced p paced ((listed p).mp mem)
    · rw [before]
      exact fun f follows mem => unfollowed f follows ((listed f).mp mem)
  · rw [State.wait_congr (cascaded q t) _ (by rw [rings]) x]
    cases left : (cascaded q t).wait x with
    | none => rfl
    | some e' =>
      obtain ⟨e'', was, same, -⟩ := pool x e' left
      rw [found] at was
      cases was
      have unlisted := (closed.orderly.waits.1 e.session x).mpr ⟨e', left, same.symm⟩
      rw [closed.own _ ((listed _).mpr closes)] at unlisted
      cases unlisted
  · rw [output, if_pos ⟨k, (listed k).mpr closes, owner⟩]
  · rw [output, if_neg fun ⟨k, mem, owner⟩ => others k owner ((listed k).mp mem)]
  · have same : (cascade q w.tag t).fetches = (cascaded q t).fetches := by rw [rings]
    rw [same] at inFlight
    obtain ⟨g, middle, ring, orphan⟩ := closed.fetches f inFlight
    rw [cascadeDropRings_fetches] at middle
    obtain ⟨g', -, rfl⟩ := List.mem_map.mp middle
    have bound : g'.ring ∈ t.boundRings q := by
      rw [State.mem_boundRings]
      split at ring <;> exact ring ▸ drops
    rw [orphan, if_pos bound]
  · rw [rings, frame, dropped]
  · rw [rings, frame, dropped]

end Sys2Proof.Machine

/-!
PROOFS. Places on report rings (R131, R148): a ring that fits the places held on it, through everything that events do to it.
-/

namespace Sys2Proof.Machine

/-! ### A ring that fits its places (R148) -/

/-- An OPEN ring is not overfull, and `n` places on it are reserved. -/
def ReportRing.Fits (n : Nat) (q : ReportRing) : Prop :=
  q.state = .opened → q.outstanding + q.reservations ≤ q.size ∧ n ≤ q.reservations

theorem ReportRing.Fits.mono {n m : Nat} {q : ReportRing} (fits : q.Fits n) (fewer : m ≤ n) : q.Fits m :=
  fun opened => ⟨(fits opened).1, fewer.trans (fits opened).2⟩

theorem ReportRing.Fits.of_not_opened {n : Nat} {q : ReportRing} (notOpened : q.state ≠ .opened) : q.Fits n :=
  fun opened => absurd opened notOpened

theorem ReportRing.Fits.drain {n : Nat} {q : ReportRing} (fits : q.Fits n) : q.drain.Fits n := by
  rw [q.drain_frame]
  intro opened
  obtain ⟨within, reserved⟩ := fits opened
  refine ⟨?_, reserved⟩
  simp only [ReportRing.drainCount, ReportRing.freeSpace_eq]
  omega

/-- A place that its job gives back. -/
theorem ReportRing.Fits.returned {n : Nat} {q : ReportRing} (fits : q.Fits (n + 1)) :
    (ReportRing.drain { q with reservations := q.reservations - 1 }).Fits n := by
  refine ReportRing.Fits.drain fun opened => ?_
  obtain ⟨within, reserved⟩ := fits opened
  simp only
  omega

/-- A place that its job fills with its record. -/
theorem ReportRing.Fits.handed {n : Nat} {q : ReportRing} (r i : ReportRingId) (rec : ReportRecord)
    (fits : q.Fits (n + if r = i then 1 else 0)) : (handedRing [(r, rec)] i q).Fits n := by
  unfold handedRing
  split
  next isOpen =>
    by_cases own : r = i
    · intro _
      obtain ⟨within, reserved⟩ := fits isOpen
      simp only [own, if_true] at reserved
      simp only [own, ReportRing.withJob, decide_true, List.filter_cons_of_pos, List.filter_nil, List.map_cons, List.map_nil,
        List.foldl_cons, List.foldl_nil]
      omega
    · simpa [own] using fits
  next => exact fits.mono (Nat.le_add_right _ _)

theorem ReportRing.Fits.withUnsolicited {n : Nat} {q x : ReportRing} (fits : q.Fits n) (rec : ReportRecord)
    (owner : Option SessionId) (taken : q.withUnsolicited rec owner = some x) : x.Fits n := by
  unfold ReportRing.withUnsolicited at taken
  split at taken
  next free =>
    cases taken
    intro opened
    obtain ⟨within, reserved⟩ := fits opened
    exact ⟨by simp only; omega, reserved⟩
  next =>
    split at taken
    · cases taken
      exact fits
    · cases taken

theorem ReportRing.Fits.offered {n : Nat} {q : ReportRing} (fits : q.Fits n) (i : SessionId) (e : Session) (rec : ReportRecord)
    (id : ReportRingId) : (offeredRing i e rec id q).Fits n := by
  unfold offeredRing
  split
  next =>
    cases taken : q.withUnsolicited rec (some i) with
    | none => exact fits
    | some x => exact fits.withUnsolicited rec _ taken
  next => exact fits

/-! ### The places that waits hold (R131) -/

/-- The number of places of a report ring that outstanding waits hold. -/
def waitPlaces (s : State) (q : ReportRingId) : Nat :=
  allWaits.countP (fun w => (s.wait w).any (fun e => decide (e.reportRing = q)))

theorem countP_update {α : Type} (l : List α) (distinct : l.Nodup) {w : α} (mem : w ∈ l) {p p' : α → Bool}
    (same : ∀ x, x ≠ w → p' x = p x) : l.countP p' + (p w).toNat = l.countP p + (p' w).toNat := by
  induction l with
  | nil => cases mem
  | cons x rest ih =>
    obtain ⟨fresh, distinct⟩ := List.nodup_cons.mp distinct
    simp only [List.countP_cons]
    rcases List.mem_cons.mp mem with rfl | later
    · have kept : rest.countP p' = rest.countP p :=
        List.countP_congr fun y listed => by rw [same y fun own => fresh (own ▸ listed)]
      rw [kept]
      cases p w <;> cases p' w <;> simp
    · have other : x ≠ w := fun own => fresh (own ▸ later)
      rw [same x other]
      have := ih distinct later
      omega

theorem waitPlaces_congr {s t : State} (q : ReportRingId)
    (pool : ∀ x, (t.wait x).map WaitEntry.reportRing = (s.wait x).map WaitEntry.reportRing) :
    waitPlaces t q = waitPlaces s q := by
  have place (o : Option WaitEntry) : o.any (fun e => decide (e.reportRing = q)) =
      (o.map WaitEntry.reportRing).any (fun r => decide (r = q)) := by cases o <;> rfl
  simp only [waitPlaces, place, pool]

theorem waitPlaces_update {s t : State} {w : WaitId} {o : Option WaitEntry} (q : ReportRingId)
    (pool : ∀ x, t.wait x = if x = w then o else s.wait x) :
    waitPlaces t q + ((s.wait w).any (fun e => decide (e.reportRing = q))).toNat =
      waitPlaces s q + (o.any (fun e => decide (e.reportRing = q))).toNat := by
  have update := countP_update allWaits (List.nodup_finRange _) (List.mem_finRange w)
    (p := fun x => (s.wait x).any (fun e => decide (e.reportRing = q)))
    (p' := fun x => (t.wait x).any (fun e => decide (e.reportRing = q)))
    fun x other => by rw [pool, if_neg other]
  simp only [pool w, if_true] at update
  exact update

/-- A wait that is freed gives its place up. -/
theorem waitPlaces_freed {s t : State} {w : WaitId} {e : WaitEntry} (q : ReportRingId) (found : s.wait w = some e)
    (pool : ∀ x, t.wait x = if x = w then none else s.wait x) :
    waitPlaces s q = waitPlaces t q + if e.reportRing = q then 1 else 0 := by
  have update := waitPlaces_update q pool
  rw [found] at update
  by_cases own : e.reportRing = q <;> simp [own] at update ⊢ <;> omega

/-- A wait in a free entry takes a place. -/
theorem waitPlaces_taken {s t : State} {w : WaitId} {e : WaitEntry} (q : ReportRingId) (isFree : s.wait w = none)
    (pool : ∀ x, t.wait x = if x = w then some e else s.wait x) :
    waitPlaces t q = waitPlaces s q + if e.reportRing = q then 1 else 0 := by
  have update := waitPlaces_update q pool
  rw [isFree] at update
  by_cases own : e.reportRing = q <;> simpa [own] using update

/-! ### Every ring fits its places, whatever events do -/

/-- Every ring fits the places of the waits and `more` others. -/
def Seats (more : ReportRingId → Nat) (s : State) : Prop := ∀ q, (s.reportRing q).Fits (waitPlaces s q + more q)

theorem Seats.congr {more : ReportRingId → Nat} {s t : State} (seats : Seats more s) (rings : t.reportRings = s.reportRings)
    (waits : t.waits = s.waits) : Seats more t := by
  intro q
  have count : waitPlaces t q = waitPlaces s q := waitPlaces_congr q fun x => by rw [State.wait_congr s t waits]
  rw [State.reportRing_congr s t rings, count]
  exact seats q

theorem Seats.mono {more fewer : ReportRingId → Nat} {s : State} (seats : Seats more s) (less : ∀ q, fewer q ≤ more q) :
    Seats fewer s := fun q => (seats q).mono (Nat.add_le_add_left (less q) _)

/-- A ring that changes and still fits its places. -/
theorem Seats.setReportRing {more : ReportRingId → Nat} {s : State} (seats : Seats more s) (q : ReportRingId) {x : ReportRing}
    (fits : x.Fits (waitPlaces s q + more q)) : Seats more (s.setReportRing q x) := by
  intro i
  have count : waitPlaces (s.setReportRing q x) i = waitPlaces s i := rfl
  rw [State.reportRing_setReportRing, count]
  split
  next own => exact own ▸ fits
  next => exact seats i

theorem Effect.seats {guard : Prop} {more : ReportRingId → Nat} {s t : State} (effect : Effect guard s t)
    (seats : Seats more s) : Seats more t := by
  intro q
  cases effect with
  | post i kind status index value flags live =>
    have count : waitPlaces (postRecord i kind status index value flags s) q = waitPlaces s q :=
      waitPlaces_congr q fun x => by rw [(tableFrame_postRecord i kind status index value flags s).wait]
    rw [(postRecord_eq i kind status index value flags s).1, count]
    exact (seats q).offered _ _ _ _
  | complete w status stamp =>
    cases found : s.wait w with
    | none => simpa [completeWaitAt, found] using seats q
    | some e =>
      have places := waitPlaces_freed q found fun x => completeWaitAt_wait w x status stamp s
      rw [completeWaitAt_reportRing w status stamp s e found]
      refine ReportRing.Fits.handed _ _ _ ((seats q).mono ?_)
      omega
  | discard w =>
    cases found : s.wait w with
    | none => simpa [discardWait, found] using seats q
    | some e =>
      have places := waitPlaces_freed q found fun x => discardWait_wait w x s
      rw [discardWait_reportRing w s e found, reservationsReturned]
      by_cases own : e.reportRing = q
      · rw [if_pos own] at places
        simp only [own, decide_true, List.filter_cons_of_pos, List.filter_nil, List.foldl_cons, List.foldl_nil]
        split
        · exact ReportRing.Fits.returned ((seats q).mono (by omega))
        next notOpen => exact .of_not_opened notOpen
      · rw [if_neg own] at places
        simpa [own] using (seats q).mono (by omega)
  | lower w e cond found =>
    have same : waitPlaces (s.setWait w (some { e with cond })) q = waitPlaces s q := by
      refine waitPlaces_congr q fun x => ?_
      rw [State.wait_setWait]
      split
      next own => rw [own, found]; rfl
      next => rfl
    rw [same]
    exact seats q
  | entry | marks | taken | output => exact seats q

theorem Effects.seats {guard : Prop} {more : ReportRingId → Nat} {s t : State} (run : Effects guard s t)
    (seats : Seats more s) : Seats more t := run.keep (fun _ _ effect => effect.seats) seats

end Sys2Proof.Machine

/-!
PROOFS. Unanswered jobs belong to rings that are there (R4, R70, R96, R125, R138, R140): what of the tables this is about, and
that events and closes keep it.
-/

namespace Sys2Proof.Machine

/-! ### The parts of the agreement -/

/-- Waits and fetches belong to job rings that are there, and these to report rings that are there; JR0 alone to RR0. -/
structure State.Belongs (s : State) : Prop where
  waits : ∀ w e, s.wait w = some e →
    (s.session e.session).owner = some e.ring ∧ (s.jobRing e.ring).state ≠ .absent ∧ (s.jobRing e.ring).bound = e.reportRing
  fetches : ∀ f ∈ s.fetches, f.orphan = false →
    (s.jobRing f.ring).state ≠ .absent ∧ (s.jobRing f.ring).bound = f.reportRing ∧ (s.jobRing f.ring).fetchInFlight = true
  distinct : ((s.fetches.filter (fun f => !f.orphan)).map PointFetch.ring).Nodup
  bound : ∀ j, (s.jobRing j).state ≠ .absent → (s.reportRing (s.jobRing j).bound).state ≠ .absent
  control : ∀ j, (s.jobRing j).state ≠ .absent → ((s.jobRing j).bound = 0 ↔ j = 0)

/-- The take in progress belongs to a ring without a fetch, reads at its take index, and drops a ring that none is bound to. -/
def State.TakeBelongs (s : State) : Prop :=
  ∀ t, s.taking = some t →
    (s.jobRing t.ring).state ≠ .absent ∧ (s.jobRing t.ring).fetchInFlight = false ∧
      (∀ address, t.stage = .reading address → address = (s.jobRing t.ring).recordAddress) ∧
      ∀ q tag, t.stage = .dropping q tag → t.ring = 0 ∧ ∀ j, (s.jobRing j).state ≠ .absent → (s.jobRing j).bound ≠ q

theorem State.jobsBelong_iff (s : State) : s.JobsBelong ↔ s.Belongs ∧ s.TakeBelongs :=
  ⟨fun ⟨waits, fetches, distinct, take, bound, control⟩ => ⟨⟨waits, fetches, distinct, bound, control⟩, take⟩,
    fun ⟨⟨waits, fetches, distinct, bound, control⟩, take⟩ => ⟨waits, fetches, distinct, take, bound, control⟩⟩

theorem State.takeBelongs_of_idle {s : State} (idle : s.taking = none) : s.TakeBelongs :=
  fun _ taking => nomatch idle.symm.trans taking

/-- The places of a report ring that point fetches hold. -/
def fetchPlaces (s : State) (q : ReportRingId) : Nat := s.fetches.countP (fun f => !f.orphan && decide (f.reportRing = q))

/-- The place that the job of the take in progress holds. -/
def takePlaces (s : State) (q : ReportRingId) : Nat :=
  if s.taking.any (fun t => decide ((s.jobRing t.ring).bound = q)) then 1 else 0

/-- The places that are not a wait's. -/
def otherPlaces (s : State) (q : ReportRingId) : Nat := takePlaces s q + fetchPlaces s q

theorem State.placesSound_iff (s : State) :
    s.PlacesSound ↔ s.WaitsAgree ∧ s.Belongs ∧ s.TakeBelongs ∧ Seats (otherPlaces s) s := by
  have places (q : ReportRingId) : s.placesHeld q = waitPlaces s q + otherPlaces s q := by
    have parts : s.placesHeld q = takePlaces s q + waitPlaces s q + fetchPlaces s q := rfl
    rw [parts, otherPlaces]
    omega
  rw [State.PlacesSound, s.jobsBelong_iff, and_assoc]
  simp only [places, Seats, ReportRing.Fits]

/-! ### What keeps it -/

/-- Tables that differ only in what the agreement is not about; waits and owners may go, a wait with its owner. -/
structure JobsKept (s u : State) : Prop where
  ring : ∀ j, ((u.jobRing j).state = .absent ↔ (s.jobRing j).state = .absent) ∧ (u.jobRing j).bound = (s.jobRing j).bound ∧
    (u.jobRing j).fetchInFlight = (s.jobRing j).fetchInFlight
  fetches : ∃ g : PointFetch → PointFetch,
    (∀ f, (g f).ring = f.ring ∧ (g f).orphan = f.orphan ∧ (g f).reportRing = f.reportRing) ∧ u.fetches = s.fetches.map g
  waits : ∀ w e, u.wait w = some e → ∃ e', s.wait w = some e' ∧ e'.session = e.session ∧ e'.ring = e.ring ∧
    e'.reportRing = e.reportRing ∧ (u.session e.session).owner = (s.session e.session).owner
  report : ∀ q, (u.reportRing q).state = .absent → (s.reportRing q).state = .absent

theorem fetches_map_id (l : List PointFetch) : ∃ g : PointFetch → PointFetch,
    (∀ f, (g f).ring = f.ring ∧ (g f).orphan = f.orphan ∧ (g f).reportRing = f.reportRing) ∧ l = l.map g :=
  ⟨id, fun _ => ⟨rfl, rfl, rfl⟩, (List.map_id l).symm⟩

theorem JobsKept.refl (s : State) : JobsKept s s :=
  ⟨fun _ => ⟨.rfl, rfl, rfl⟩, fetches_map_id _, fun _ e found => ⟨e, found, rfl, rfl, rfl, rfl⟩, fun _ => id⟩

theorem JobsKept.trans {s t u : State} (h : JobsKept s t) (h' : JobsKept t u) : JobsKept s u := by
  obtain ⟨g, same, fetches⟩ := h.fetches
  obtain ⟨g', same', fetches'⟩ := h'.fetches
  refine ⟨fun j => ?_, ⟨g' ∘ g, fun f => ?_, ?_⟩, fun w e found => ?_, fun q absent => h.report q (h'.report q absent)⟩
  · obtain ⟨absent, bound, mark⟩ := h.ring j
    obtain ⟨absent', bound', mark'⟩ := h'.ring j
    exact ⟨absent'.trans absent, bound'.trans bound, mark'.trans mark⟩
  · obtain ⟨ring, orphan, report⟩ := same f
    obtain ⟨ring', orphan', report'⟩ := same' (g f)
    exact ⟨ring'.trans ring, orphan'.trans orphan, report'.trans report⟩
  · rw [fetches', fetches, List.map_map]
  · obtain ⟨e', middle, session', ring', report', owner'⟩ := h'.waits w e found
    obtain ⟨e'', before, session, ring, report, owner⟩ := h.waits w e' middle
    rw [session'] at session owner
    exact ⟨e'', before, session, ring.trans ring', report.trans report', owner'.trans owner⟩

theorem JobsKept.belongs {s u : State} (kept : JobsKept s u) (belongs : s.Belongs) : u.Belongs := by
  obtain ⟨g, same, fetches⟩ := kept.fetches
  have present (j : JobRingId) : (u.jobRing j).state ≠ .absent ↔ (s.jobRing j).state ≠ .absent := not_congr (kept.ring j).1
  have bound (j : JobRingId) := (kept.ring j).2.1
  refine ⟨fun w e found => ?_, fun f inFlight valid => ?_, ?_, fun j there => ?_, fun j there => ?_⟩
  · obtain ⟨e', before, session, ring, report, owner⟩ := kept.waits w e found
    have was := belongs.waits w e' before
    rw [present, bound, owner, ← session, ← ring, ← report]
    exact was
  · rw [fetches] at inFlight
    obtain ⟨f', before, rfl⟩ := List.mem_map.mp inFlight
    obtain ⟨ring, orphan, report⟩ := same f'
    rw [ring, report, present, bound, (kept.ring _).2.2]
    exact belongs.fetches f' before (orphan ▸ valid)
  · have orphans : (fun f => !PointFetch.orphan f) ∘ g = fun f => !f.orphan := funext fun f => by simp [(same f).2.1]
    have rings : PointFetch.ring ∘ g = PointFetch.ring := funext fun f => (same f).1
    rw [fetches, List.filter_map, orphans, List.map_map, rings]
    exact belongs.distinct
  · rw [bound]
    exact fun absent => belongs.bound j ((present j).mp there) (kept.report _ absent)
  · rw [bound]
    exact belongs.control j ((present j).mp there)

theorem JobsKept.fetchPlaces {s u : State} (kept : JobsKept s u) : fetchPlaces u = fetchPlaces s := by
  obtain ⟨g, same, fetches⟩ := kept.fetches
  funext q
  have places : (fun f : PointFetch => !f.orphan && decide (f.reportRing = q)) ∘ g =
      fun f => !f.orphan && decide (f.reportRing = q) := funext fun f => by simp [(same f).2.1, (same f).2.2]
  rw [Machine.fetchPlaces, Machine.fetchPlaces, fetches, List.countP_map, places]

/-! ### Events keep it -/

theorem Effect.owner {guard : Prop} {s t : State} (effect : Effect guard s t) (k : SessionId) :
    (t.session k).owner = (s.session k).owner := by
  cases effect with
  | post i kind status index value flags live =>
    rw [(postRecord_eq i kind status index value flags s).2]
    split
    next own => rw [own]
    next => rfl
  | entry i e live mild tame =>
    rw [State.session_setSession]
    split
    next own => rw [own, mild.owner]
    next => rfl
  | marks i =>
    rw [handMarks_session]
    split
    next own => rw [own.1]
    next => rfl
  | taken f p out paced after =>
    rw [State.session_updSession]
    split
    next own => rw [own]
    next => rfl
  | complete w status stamp =>
    cases found : s.wait w with
    | none => simp only [completeWaitAt, found]
    | some e =>
      rw [completeWaitAt_session w status stamp s e found]
      split <;> rfl
  | discard w =>
    cases found : s.wait w with
    | none => simp only [discardWait, found]
    | some e =>
      rw [discardWait_session w s e found]
      split <;> rfl
  | lower | output => rfl

theorem ReportRing.drain_state (q : ReportRing) : q.drain.state = q.state := by rw [q.drain_frame]

theorem handedRing_state (recs : List (ReportRingId × ReportRecord)) (i : ReportRingId) (q : ReportRing) :
    (handedRing recs i q).state = q.state := by
  have placed (l : List ReportRecord) : (l.foldl ReportRing.withJob q).state = q.state := by
    induction l generalizing q with
    | nil => rfl
    | cons rec rest ih => exact ih (q.withJob rec)
  unfold handedRing
  split
  · exact placed _
  · rfl

theorem ReportRing.withUnsolicited_state {q x : ReportRing} {rec : ReportRecord} {owner : Option SessionId}
    (taken : q.withUnsolicited rec owner = some x) : x.state = q.state := by
  unfold ReportRing.withUnsolicited at taken
  split at taken
  · cases taken
    rfl
  · split at taken <;> cases taken
    rfl

theorem offeredRing_state (i : SessionId) (e : Session) (rec : ReportRecord) (id : ReportRingId) (q : ReportRing) :
    (offeredRing i e rec id q).state = q.state := by
  unfold offeredRing
  split
  · cases taken : q.withUnsolicited rec (some i) with
    | none => rfl
    | some x => exact ReportRing.withUnsolicited_state taken
  · rfl

theorem returnReservation_state (ring q : ReportRingId) (s : State) :
    ((returnReservation ring s).reportRing q).state = (s.reportRing q).state := by
  rw [returnReservation_reportRing]
  split
  next own => rw [ReportRing.drain_state, own.1]
  next => rfl

theorem Effect.reportRing_state {guard : Prop} {s t : State} (effect : Effect guard s t) (q : ReportRingId) :
    (t.reportRing q).state = (s.reportRing q).state := by
  cases effect with
  | post i kind status index value flags live =>
    rw [(postRecord_eq i kind status index value flags s).1, offeredRing_state]
  | complete w status stamp =>
    cases found : s.wait w with
    | none => simp only [completeWaitAt, found]
    | some e => rw [completeWaitAt_reportRing w status stamp s e found, handedRing_state]
  | discard w =>
    cases found : s.wait w with
    | none => simp only [discardWait, found]
    | some e => simp only [discardWait, found, returnReservation_state, freeWait_reportRing]
  | entry | marks | taken | lower | output => rfl

theorem Effect.jobsKept {guard : Prop} {s t : State} (effect : Effect guard s t) : JobsKept s t := by
  have frame := effect.frame
  refine ⟨fun j => ?_, frame.fetches ▸ fetches_map_id _, fun x e found => ?_, fun q => ?_⟩
  · rw [frame.jobRing]
    exact ⟨.rfl, rfl, rfl⟩
  · obtain ⟨e', before, session, ring, report⟩ := effect.waitsComeFrom x e found
    exact ⟨e', before, session, ring, report, effect.owner e.session⟩
  · rw [effect.reportRing_state]
    exact id

theorem Effects.jobsKept {guard : Prop} {s t : State} (run : Effects guard s t) : JobsKept s t :=
  run.keep (P := JobsKept s) (fun _ _ effect before => before.trans effect.jobsKept) (.refl s)

theorem Effects.takeBelongs {guard : Prop} {s t : State} (run : Effects guard s t) (take : s.TakeBelongs) : t.TakeBelongs := by
  have taking : t.taking = s.taking := by rw [run.frame]
  intro x reading
  simp only [run.frame.jobRing]
  exact take x (taking ▸ reading)

theorem Effects.otherPlaces {guard : Prop} {s t : State} (run : Effects guard s t) : otherPlaces t = otherPlaces s := by
  have taking : t.taking = s.taking := by rw [run.frame]
  funext q
  rw [Machine.otherPlaces, Machine.otherPlaces, run.jobsKept.fetchPlaces, takePlaces, takePlaces, taking]
  simp only [run.frame.jobRing]

/-! ### A close keeps it (R16, R19) -/

/-- The end of a close, at which the session has no wait left. -/
theorem freed_jobsKept (k : SessionId) {v : State} (waits : v.WaitsAgree) (ended : (v.session k).waits = []) :
    JobsKept v (freed k v) := by
  have frame := freed_frame k v
  refine ⟨fun j => ?_, ⟨_, fun f => ?_, freed_fetches k v⟩, fun x e found => ?_, fun q => ?_⟩
  · rw [State.jobRing_congr v _ (by rw [frame]) j]
    exact ⟨.rfl, rfl, rfl⟩
  · split <;> exact ⟨rfl, rfl, rfl⟩
  · rw [freed_wait] at found
    have other : e.session ≠ k := fun own => by
      have listed := (waits.1 k x).mpr ⟨e, found, own⟩
      rw [ended] at listed
      cases listed
    exact ⟨e, found, rfl, rfl, rfl, by rw [freed_session, if_neg other]⟩
  · rw [freed_reportRing]
    split <;> exact id

theorem freed_seats {more : ReportRingId → Nat} (k : SessionId) {v : State} (seats : Seats more v) :
    Seats more (freed k v) := by
  intro q
  have count : waitPlaces (freed k v) q = waitPlaces v q := waitPlaces_congr q fun x => by rw [freed_wait]
  rw [count, freed_reportRing]
  split
  · exact seats q
  · exact seats q

theorem closeSession_jobsKept {endWaits : SessionId → State → State} (ends : EndsAllWaits endWaits) (k : SessionId) {s : State}
    (waits : s.WaitsAgree) : JobsKept s (closeSession endWaits k s) :=
  (effects_beforeFreed ends.effects k s).jobsKept.trans
    (freed_jobsKept k ((effects_beforeFreed ends.effects k s).waitsAgree waits) (ends.beforeFreed k waits))

theorem closeSession_seats {endWaits : SessionId → State → State} (ends : EndsAllWaits endWaits) {more : ReportRingId → Nat}
    (k : SessionId) {s : State} (seats : Seats more s) : Seats more (closeSession endWaits k s) :=
  freed_seats k ((effects_beforeFreed ends.effects k s).seats seats)

theorem closeAllQuietly_jobsKept (l : List SessionId) {s : State} (waits : s.WaitsAgree) : JobsKept s (closeAllQuietly l s) := by
  induction l generalizing s with
  | nil => exact .refl s
  | cons k rest ih =>
    exact (closeSession_jobsKept dropWaits_endsAll k waits).trans (ih (dropWaits_endsAll.waitsAgree k waits))

theorem closeAllQuietly_seats (l : List SessionId) {more : ReportRingId → Nat} {s : State} (seats : Seats more s) :
    Seats more (closeAllQuietly l s) := by
  induction l generalizing s with
  | nil => exact seats
  | cons k rest ih => exact ih (closeSession_seats dropWaits_endsAll k seats)

end Sys2Proof.Machine

/-!
PROOFS. A job with its place, from the arrival of its record to its end (R131, R148): its answer, its wait or its fetch has the
place, or the drop that waits.
-/

namespace Sys2Proof.Machine

/-! ### A job on its way -/

/-- The places of a report ring that are not a wait's while a job of ring `r` is on its way. -/
def jobPlaces (r : JobRingId) (t : State) (q : ReportRingId) : Nat :=
  fetchPlaces t q + if (t.jobRing r).bound = q then 1 else 0

/-- No take is in progress, and the job of ring `r` still has its place. -/
structure Midway (r : JobRingId) (t : State) : Prop where
  waits : t.WaitsAgree
  belongs : t.Belongs
  idle : t.taking = none
  present : (t.jobRing r).state ≠ .absent
  noFetch : (t.jobRing r).fetchInFlight = false
  seats : Seats (jobPlaces r t) t

/-- The agreement of places after a job, but for the wait lists. -/
def State.Finished (u : State) : Prop := u.Belongs ∧ u.TakeBelongs ∧ Seats (otherPlaces u) u

theorem State.finished_of_idle {u : State} (belongs : u.Belongs) (idle : u.taking = none) (seats : Seats (fetchPlaces u) u) :
    u.Finished := by
  have places : otherPlaces u = fetchPlaces u := by
    funext q
    simp [otherPlaces, takePlaces, idle]
  exact ⟨belongs, State.takeBelongs_of_idle idle, places ▸ seats⟩

theorem Midway.of_kept {r : JobRingId} {t u : State} (midway : Midway r t) (kept : JobsKept t u) (idle : u.taking = none)
    (waits : u.WaitsAgree) (seats : Seats (jobPlaces r t) u) : Midway r u := by
  obtain ⟨absent, bound, mark⟩ := kept.ring r
  have places : jobPlaces r u = jobPlaces r t := by
    funext q
    rw [jobPlaces, jobPlaces, kept.fetchPlaces, bound]
  exact ⟨waits, kept.belongs midway.belongs, idle, mt absent.mp midway.present, mark.trans midway.noFetch,
    places.symm ▸ seats⟩

/-- States that differ in nothing that the agreement is about. -/
theorem JobsKept.of_same {s u : State} (jobRings : u.jobRings = s.jobRings) (fetches : u.fetches = s.fetches)
    (waits : u.waits = s.waits) (sessions : ∀ w e, s.wait w = some e →
      (u.session e.session).owner = (s.session e.session).owner)
    (report : ∀ q, (u.reportRing q).state = .absent → (s.reportRing q).state = .absent) : JobsKept s u := by
  refine ⟨fun j => ?_, fetches ▸ fetches_map_id _, fun w e found => ?_, report⟩
  · rw [State.jobRing_congr s u jobRings]
    exact ⟨.rfl, rfl, rfl⟩
  · have before := State.wait_congr s u waits w ▸ found
    exact ⟨e, before, rfl, rfl, rfl, sessions w e before⟩

/-! ### An answer takes the place of its job (R131, R145) -/

theorem answer_jobsKept (r : JobRingId) (report : ReportRingId) (tag : BitVec 16) (a : Answer) (t : State) :
    JobsKept t (answer r report tag a t) := by
  have only := answer_onlyRings r report tag a t
  refine ⟨fun j => ?_, ?_, fun w e found => ?_, fun q => ?_⟩
  · rw [answer_jobRing]
    by_cases own : j = r
    · rw [if_pos own, own, JobRing.afterAnswer]
      split
      next halts => exact ⟨by simp [halts.2.2], rfl, rfl⟩
      next => exact ⟨.rfl, rfl, rfl⟩
    · rw [if_neg own]
      exact ⟨.rfl, rfl, rfl⟩
  · have same : (answer r report tag a t).fetches = t.fetches := by rw [only]
    exact same ▸ fetches_map_id _
  · rw [answer_wait] at found
    exact ⟨e, found, rfl, rfl, rfl, by rw [answer_session]⟩
  · rw [answer_reportRing, handedRing_state]
    exact id

theorem answer_seats {more : ReportRingId → Nat} (r : JobRingId) (report : ReportRingId) (tag : BitVec 16) (a : Answer)
    {t : State} (seats : Seats (fun q => more q + if report = q then 1 else 0) t) : Seats more (answer r report tag a t) := by
  intro q
  have count : waitPlaces (answer r report tag a t) q = waitPlaces t q := waitPlaces_congr q fun x => by rw [answer_wait]
  rw [count, answer_reportRing]
  exact ReportRing.Fits.handed report q _ ((seats q).mono (le_of_eq (Nat.add_assoc _ _ _)))

theorem Midway.answered {r : JobRingId} {t : State} (midway : Midway r t) (tag : BitVec 16) (a : Answer) :
    (answer r (t.jobRing r).bound tag a t).Finished := by
  have kept := answer_jobsKept r (t.jobRing r).bound tag a t
  have only := answer_onlyRings r (t.jobRing r).bound tag a t
  refine State.finished_of_idle (kept.belongs midway.belongs) (by rw [only]; exact midway.idle) ?_
  rw [kept.fetchPlaces]
  exact answer_seats r _ tag a midway.seats

/-! ### Other job rings (R140, R141) -/

/-- A job ring that no wait and no fetch belongs to may change. -/
theorem State.Belongs.setJobRing {t : State} (belongs : t.Belongs) (j : JobRingId) (e : JobRing)
    (noWait : ∀ w x, t.wait w = some x → x.ring ≠ j) (noFetch : ∀ f ∈ t.fetches, f.orphan = false → f.ring ≠ j)
    (bound : e.state ≠ .absent → (t.reportRing e.bound).state ≠ .absent)
    (control : e.state ≠ .absent → (e.bound = 0 ↔ j = 0)) : (t.setJobRing j e).Belongs := by
  have entry (i : JobRingId) := State.jobRing_setJobRing t j i e
  refine ⟨fun w x found => ?_, fun f inFlight valid => ?_, belongs.distinct, fun i there => ?_, fun i there => ?_⟩
  · rw [entry, if_neg (noWait w x found)]
    exact belongs.waits w x found
  · rw [entry, if_neg (noFetch f inFlight valid)]
    exact belongs.fetches f inFlight valid
  · rw [entry] at there ⊢
    split at there
    next own => rw [if_pos own]; exact bound there
    next other => rw [if_neg other]; exact belongs.bound i there
  · rw [entry] at there ⊢
    split at there
    next own => rw [if_pos own, own]; exact control there
    next other => rw [if_neg other]; exact belongs.control i there

theorem Midway.setJobRing {r : JobRingId} {t : State} (midway : Midway r t) (j : JobRingId) (e : JobRing) (other : r ≠ j)
    (belongs : (t.setJobRing j e).Belongs) : Midway r (t.setJobRing j e) := by
  have same : (t.setJobRing j e).jobRing r = t.jobRing r := State.jobRing_setJobRing_ne t j r e other
  have places : jobPlaces r (t.setJobRing j e) = jobPlaces r t := by
    funext q
    rw [jobPlaces, jobPlaces, same]
    rfl
  exact ⟨midway.waits.congr rfl rfl, belongs, midway.idle, same.symm ▸ midway.present, same.symm ▸ midway.noFetch,
    places.symm ▸ midway.seats.congr rfl rfl⟩

theorem State.Belongs.setJobRing_of_absent {t : State} (belongs : t.Belongs) (j : JobRingId) (e : JobRing)
    (absent : (t.jobRing j).state = .absent) (bound : (t.reportRing e.bound).state ≠ .absent)
    (control : e.bound = 0 ↔ j = 0) : (t.setJobRing j e).Belongs :=
  belongs.setJobRing j e (fun w x found own => (belongs.waits w x found).2.1 (own ▸ absent))
    (fun f inFlight valid own => (belongs.fetches f inFlight valid).1 (own ▸ absent)) (fun _ => bound) fun _ => control

/-- A ring that owns no session and has no fetch in flight can go. -/
theorem State.Belongs.forgetJobRing {t : State} (belongs : t.Belongs) (j : JobRingId) (unowned : t.ownedCount j = 0)
    (noFetch : (t.jobRing j).fetchInFlight = false) : (forgetJobRing j t).Belongs := by
  refine belongs.setJobRing j {} (fun w x found own => ?_) (fun f inFlight valid own => ?_) (fun there => absurd rfl there)
    fun there => absurd rfl there
  · have owner := (belongs.waits w x found).1
    have owns := List.countP_eq_zero.mp unowned x.session (List.mem_finRange _)
    rw [owner, own] at owns
    exact owns (decide_eq_true rfl)
  · have mark := (belongs.fetches f inFlight valid).2.2
    rw [own, noFetch] at mark
    cases mark

/-! ### Report rings (R155, R156) -/

/-- No place is held on a ring that no job ring is bound to. -/
theorem State.Belongs.no_places {t : State} (belongs : t.Belongs) (q : ReportRingId)
    (noUser : ∀ j, (t.jobRing j).state ≠ .absent → (t.jobRing j).bound ≠ q) : waitPlaces t q = 0 ∧ fetchPlaces t q = 0 := by
  refine ⟨List.countP_eq_zero.mpr fun w _ => ?_, List.countP_eq_zero.mpr fun f inFlight => ?_⟩
  · cases found : t.wait w with
    | none => simp
    | some e =>
      obtain ⟨-, present, bound⟩ := belongs.waits w e found
      have other := noUser e.ring present
      rw [bound] at other
      simp [other]
  · cases valid : f.orphan with
    | true => simp
    | false =>
      obtain ⟨present, bound, -⟩ := belongs.fetches f inFlight valid
      have other := noUser f.ring present
      rw [bound] at other
      simp [other]

theorem State.Belongs.noUser_of_absent {t : State} (belongs : t.Belongs) {q : ReportRingId}
    (absent : (t.reportRing q).state = .absent) (j : JobRingId) (there : (t.jobRing j).state ≠ .absent) :
    (t.jobRing j).bound ≠ q := fun own => belongs.bound j there (own ▸ absent)

theorem State.Belongs.forgetReportRing {t : State} (belongs : t.Belongs) (q : ReportRingId)
    (noUser : ∀ j, (t.jobRing j).state ≠ .absent → (t.jobRing j).bound ≠ q) : (forgetReportRing q t).Belongs := by
  refine ⟨belongs.waits, belongs.fetches, belongs.distinct, fun j there => ?_, belongs.control⟩
  have other : ((Machine.forgetReportRing q t).jobRing j).bound ≠ q := noUser j there
  have same : (Machine.forgetReportRing q t).reportRing ((Machine.forgetReportRing q t).jobRing j).bound =
      t.reportRing (t.jobRing j).bound := State.reportRing_setReportRing_ne t q _ {} other
  rw [same]
  exact belongs.bound j there

theorem Midway.forgetReportRing {r : JobRingId} {t : State} (midway : Midway r t) (q : ReportRingId)
    (noUser : ∀ j, (t.jobRing j).state ≠ .absent → (t.jobRing j).bound ≠ q) : Midway r (forgetReportRing q t) := by
  refine ⟨midway.waits.congr rfl rfl, midway.belongs.forgetReportRing q noUser, midway.idle, midway.present,
    midway.noFetch, ?_⟩
  exact midway.seats.setReportRing q (.of_not_opened (by nofun))

theorem noUser_of_usersOf {t : State} {q : ReportRingId} (noUser : t.usersOf q = 0) (j : JobRingId)
    (there : (t.jobRing j).state ≠ .absent) : (t.jobRing j).bound ≠ q := by
  intro bound
  have listed := (t.mem_boundRings q j).mpr ⟨there, bound⟩
  have empty : t.boundRings q = [] := List.length_eq_zero_iff.mp (Nat.add_eq_zero_iff.mp noUser).1
  rw [empty] at listed
  cases listed

theorem Midway.dropUnused {t : State} (midway : Midway 0 t) (q : ReportRingId) (tag : BitVec 16)
    (noUser : ∀ j, (t.jobRing j).state ≠ .absent → (t.jobRing j).bound ≠ q) : (dropUnused q tag t).Finished :=
  (midway.forgetReportRing q noUser).answered tag _

end Sys2Proof.Machine

/-!
PROOFS. Every job leaves the places in agreement: the jobs that answer, a wait, a fetch, and the drop of a report ring (R70, R101,
R131, R156, R157).
-/

namespace Sys2Proof.Machine

/-! ### The jobs that answer -/

theorem configure_jobsKept (r : JobRingId) (k : SessionId) (w : JobRecord) (setup : Session) {t : State} (waits : t.WaitsAgree)
    (isFree : (t.session k).state = .free) (passes : openRefusal r w setup t = none) :
    JobsKept t (configure r k w setup t) := by
  have frame := configure_frame r k w setup t
  refine .of_same (by rw [frame]) (by rw [frame]) (by rw [frame]) (fun x e found => ?_) fun q => ?_
  · have other : e.session ≠ k := fun own => by
      have listed := (waits.1 k x).mpr ⟨e, found, own⟩
      rw [waits.2.2 k isFree] at listed
      cases listed
    rw [configure_session r k w setup t (openRefusal_other r w setup t passes k isFree), if_neg other]
    split <;> rfl
  · rw [State.reportRing_congr t _ (by rw [frame]) q]
    exact id

theorem Midway.done {guard : Prop} {r : JobRingId} {t u : State} (midway : Midway r t) (done : JobDone guard r t u) :
    Midway r u := by
  have agree := done.waitsAgree midway.waits
  have belongs := midway.belongs
  cases done with
  | effects run => exact midway.of_kept run.jobsKept (by rw [run.frame]; exact midway.idle) agree (run.seats midway.seats)
  | opened k w setup isFree asked passes =>
    have frame := configure_frame r k w setup t
    exact midway.of_kept (configure_jobsKept r k w setup midway.waits isFree passes) (by rw [frame]; exact midway.idle) agree
      (midway.seats.congr (by rw [frame]) (by rw [frame]))
  | closed k live =>
    have frame := closeSession_frame effects_closeWaits k t
    exact midway.of_kept (closeSession_jobsKept closeWaits_endsAll k midway.waits) (by rw [frame]; exact midway.idle) agree
      (closeSession_seats closeWaits_endsAll k midway.seats)
  | jobRingMade j w bound work absent passes isOpen =>
    have named : workReportRingOf (w.byte 9) = some bound := by
      unfold makeJobRingBound at passes
      split at passes
      · exact passes
      · cases passes
    have workRing := ((workReportRingOf_eq_some_iff _ _).mp named).2
    refine midway.setJobRing j _ (fun own => midway.present (own ▸ absent)) (belongs.setJobRing_of_absent j _ absent ?_ ?_)
    · exact fun gone => nomatch isOpen.symm.trans gone
    · exact iff_of_false workRing work
  | jobRingDropped j work control present unowned noFetch =>
    exact midway.setJobRing j {} (fun own => work (own.symm.trans control)) (belongs.forgetJobRing j unowned noFetch)
  | jobRingRestarted j halted =>
    refine midway.of_kept ⟨fun i => ?_, fetches_map_id _, fun x e found => ⟨e, found, rfl, rfl, rfl, rfl⟩, fun _ => id⟩
      midway.idle agree (midway.seats.congr rfl rfl)
    rw [State.jobRing_updJobRing]
    split
    next own => exact ⟨by rw [own, halted]; simp, by rw [own], by rw [own]⟩
    next => exact ⟨.rfl, rfl, rfl⟩
  | reportRingMade q base size mode absent room =>
    refine midway.of_kept (.of_same rfl rfl rfl (fun _ _ _ => rfl) fun i gone => ?_) midway.idle agree
      (midway.seats.setReportRing q fun _ => ?_)
    · rw [State.reportRing_setReportRing] at gone
      split at gone
      · cases gone
      · exact gone
    · obtain ⟨noWaits, noFetches⟩ := belongs.no_places q (belongs.noUser_of_absent absent)
      have other : (t.jobRing r).bound ≠ q := belongs.noUser_of_absent absent r midway.present
      rw [jobPlaces, noWaits, noFetches, if_neg other]
      exact ⟨Nat.zero_le _, Nat.zero_le _⟩
  | tuned q mode present =>
    refine midway.of_kept (.of_same rfl rfl rfl (fun _ _ _ => rfl) fun i gone => ?_) midway.idle agree
      (midway.seats.setReportRing q (midway.seats q))
    rw [State.reportRing_updReportRing] at gone
    split at gone
    next own => exact own ▸ gone
    next => exact gone
  | lineSet l inverted width wide narrow =>
    have run := setUpLine_effects (guard := False) l inverted width t
    have set : JobsKept t (t.setLine l { t.line l with inverted, width }) :=
      .of_same rfl rfl rfl (fun _ _ _ => rfl) fun _ => id
    exact midway.of_kept (set.trans run.jobsKept) (by rw [run.frame]; exact midway.idle) agree
      (run.seats (midway.seats.congr rfl rfl))

/-! ### A point fetch (R70) -/

theorem Midway.fetching {r : JobRingId} {t : State} (midway : Midway r t) (k : SessionId) (w : JobRecord) (n : Nat)
    (mode : CommitMode) : (beginFetch r k w n mode t).Finished := by
  have entry (j : JobRingId) : (beginFetch r k w n mode t).jobRing j =
      if j = r then { t.jobRing r with fetchInFlight := true } else t.jobRing j :=
    State.jobRing_updJobRing t r j (fun x => { x with fetchInFlight := true })
  have present (j : JobRingId) : ((beginFetch r k w n mode t).jobRing j).state = (t.jobRing j).state := by
    rw [entry]
    split
    next own => rw [own]
    next => rfl
  have bound (j : JobRingId) : ((beginFetch r k w n mode t).jobRing j).bound = (t.jobRing j).bound := by
    rw [entry]
    split
    next own => rw [own]
    next => rfl
  have fetches : (beginFetch r k w n mode t).fetches = t.fetches ++
      [{ ring := r, tag := w.tag, session := k, points := n, address := (w.quad 16).toNat, mode
         reportRing := (t.jobRing r).bound }] := rfl
  have belongs := midway.belongs
  refine State.finished_of_idle ⟨fun x e found => ?_, fun f inFlight valid => ?_, ?_, fun j => ?_, fun j => ?_⟩ midway.idle ?_
  · rw [present, bound]
    exact belongs.waits x e found
  · rw [present, bound, entry]
    rw [fetches] at inFlight
    rcases List.mem_append.mp inFlight with before | last
    · obtain ⟨there, report, mark⟩ := belongs.fetches f before valid
      refine ⟨there, report, ?_⟩
      split
      · rfl
      · exact mark
    · rw [List.mem_singleton.mp last]
      exact ⟨midway.present, rfl, by rw [if_pos rfl]⟩
  · rw [fetches, List.filter_append, List.map_append]
    refine List.nodup_append.mpr ⟨belongs.distinct, List.nodup_singleton r, ?_⟩
    rintro i listed j last rfl
    obtain ⟨f, mem, rfl⟩ := List.mem_map.mp listed
    obtain ⟨inFlight, valid⟩ := List.mem_filter.mp mem
    have mark := (belongs.fetches f inFlight (by simpa using valid)).2.2
    rw [List.mem_singleton.mp last, midway.noFetch] at mark
    cases mark
  · rw [present, bound]
    exact belongs.bound j
  · rw [present, bound]
    exact belongs.control j
  · have places : fetchPlaces (beginFetch r k w n mode t) = jobPlaces r t := by
      funext q
      rw [fetchPlaces, fetches, List.countP_append, jobPlaces, fetchPlaces]
      simp [List.countP_singleton]
    rw [places]
    exact midway.seats.congr rfl rfl

/-! ### A wait (R101) -/

theorem Midway.waiting {r : JobRingId} {t : State} (midway : Midway r t) (k : SessionId) (w : JobRecord) (cond : WaitCond)
    (id : WaitId) (owner : (t.session k).owner = some r) (isFree : t.wait id = none) :
    (takeWait r k w cond id t).Finished := by
  have pool (x : WaitId) : (takeWait r k w cond id t).wait x = if x = id then some (newWait r k w cond t) else t.wait x :=
    State.wait_setWait t id x (some (newWait r k w cond t))
  have owners (j : SessionId) : ((takeWait r k w cond id t).session j).owner = (t.session j).owner := by
    have entry : (takeWait r k w cond id t).session j =
        if j = k then { t.session k with waits := (t.session k).waits ++ [id] } else t.session j :=
      State.session_updSession _ k j _
    rw [entry]
    split
    next own => rw [own]
    next => rfl
  have belongs := midway.belongs
  refine State.finished_of_idle ⟨fun x e found => ?_, belongs.fetches, belongs.distinct, belongs.bound, belongs.control⟩
    midway.idle fun q => ?_
  · rw [owners]
    rw [pool] at found
    split at found
    · cases found
      exact ⟨owner, midway.present, rfl⟩
    · exact belongs.waits x e found
  · have taken : waitPlaces (takeWait r k w cond id t) q =
        waitPlaces t q + if (t.jobRing r).bound = q then 1 else 0 := waitPlaces_taken q isFree pool
    refine (midway.seats q).mono (le_of_eq ?_)
    rw [taken, jobPlaces, Nat.add_assoc, Nat.add_comm (fetchPlaces t q)]
    rfl

/-! ### The cascade (R157) -/

theorem closeSession_owner {endWaits : SessionId → State → State} (ends : ∀ k s, Effects False s (endWaits k s))
    (k j : SessionId) (s : State) :
    ((closeSession endWaits k s).session j).owner = if j = k then none else (s.session j).owner := by
  rw [closeSession_session]
  split
  · rfl
  · exact (effects_beforeFreed ends k s).keep (P := fun u => (u.session j).owner = (s.session j).owner)
      (fun _ _ effect before => (effect.owner j).trans before) rfl

theorem closeAllQuietly_owner (l : List SessionId) (j : SessionId) (s : State) :
    ((closeAllQuietly l s).session j).owner = if j ∈ l then none else (s.session j).owner := by
  induction l generalizing s with
  | nil => rfl
  | cons k rest ih =>
    have first : ((closeQuietly k s).session j).owner = if j = k then none else (s.session j).owner :=
      closeSession_owner effects_dropWaits k j s
    rw [closeAllQuietly, ih, first]
    by_cases own : j = k <;> simp [own]

/-- The job rings of a cascade that are still there are the rings that are not bound to the report ring. -/
theorem cascaded_jobRing (q : ReportRingId) (t : State) (j : JobRingId) :
    (cascaded q t).jobRing j = if j ∈ t.boundRings q then {} else t.jobRing j := by
  have frame : CloseFrame (cascadeDropRings (t.boundRings q) t) (cascaded q t) := closeAllQuietly_frame _ _
  rw [State.jobRing_congr (cascadeDropRings (t.boundRings q) t) _ (by rw [frame]) j, cascadeDropRings_jobRing]

theorem cascaded_jobRing_of_present (q : ReportRingId) (t : State) (j : JobRingId)
    (there : ((cascaded q t).jobRing j).state ≠ .absent) :
    (cascaded q t).jobRing j = t.jobRing j ∧ (t.jobRing j).state ≠ .absent ∧ (t.jobRing j).bound ≠ q := by
  rw [cascaded_jobRing] at there ⊢
  split at there
  next => exact absurd rfl there
  next other =>
    rw [if_neg other]
    exact ⟨rfl, there, fun bound => other ((t.mem_boundRings q j).mpr ⟨there, bound⟩)⟩

theorem cascadeDropRings_waitsAgree (rings : List JobRingId) {t : State} (waits : t.WaitsAgree) :
    (cascadeDropRings rings t).WaitsAgree :=
  waits.congr (by rw [cascadeDropRings_frame]) (by rw [cascadeDropRings_frame])

theorem cascaded_kept (q : ReportRingId) {t : State} (waits : t.WaitsAgree) :
    JobsKept (cascadeDropRings (t.boundRings q) t) (cascaded q t) :=
  closeAllQuietly_jobsKept _ (cascadeDropRings_waitsAgree _ waits)

theorem keptRing_of_wait {q : ReportRingId} {t : State} (waits : t.WaitsAgree) (belongs : t.Belongs) {w : WaitId} {e : WaitEntry}
    (found : (cascaded q t).wait w = some e) :
    ((cascaded q t).session e.session).owner = some e.ring ∧ (cascaded q t).jobRing e.ring = t.jobRing e.ring ∧
      (t.jobRing e.ring).state ≠ .absent ∧ (t.jobRing e.ring).bound = e.reportRing := by
  have dropped := cascadeDropRings_frame (t.boundRings q) t
  obtain ⟨e', before, session, ring, report, owner⟩ := (cascaded_kept q waits).waits w e found
  rw [State.wait_congr t _ (by rw [dropped]) w] at before
  have entry : (cascadeDropRings (t.boundRings q) t).session e.session = t.session e.session :=
    State.session_congr t _ (by rw [dropped]) e.session
  rw [entry] at owner
  obtain ⟨owned, there, bound⟩ := belongs.waits w e' before
  rw [session, ring] at owned
  rw [ring] at there bound
  have closes := closeAllQuietly_owner (t.cascadeSessions q (t.boundRings q)) e.session (cascadeDropRings (t.boundRings q) t)
  have unlisted : e.session ∉ t.cascadeSessions q (t.boundRings q) := fun listed => by
    rw [if_pos listed] at closes
    exact nomatch closes.symm.trans (owner.trans owned)
  have spared : e.ring ∉ t.boundRings q := fun drops =>
    unlisted ((t.mem_cascadeSessions q e.session).mpr (.inl ⟨e.ring, (t.mem_boundRings q e.ring).mp drops, owned⟩))
  refine ⟨owner.trans owned, ?_, there, bound.trans report⟩
  rw [cascaded_jobRing, if_neg spared]

theorem keptRing_of_fetch {q : ReportRingId} {t : State} (waits : t.WaitsAgree) (belongs : t.Belongs) {f : PointFetch}
    (inFlight : f ∈ (cascaded q t).fetches) (valid : f.orphan = false) :
    (cascaded q t).jobRing f.ring = t.jobRing f.ring ∧ (t.jobRing f.ring).state ≠ .absent ∧
      (t.jobRing f.ring).bound = f.reportRing ∧ (t.jobRing f.ring).fetchInFlight = true := by
  obtain ⟨g, same, fetches⟩ := (cascaded_kept q waits).fetches
  rw [fetches, cascadeDropRings_fetches] at inFlight
  obtain ⟨f', middle, rfl⟩ := List.mem_map.mp inFlight
  obtain ⟨f'', before, rfl⟩ := List.mem_map.mp middle
  obtain ⟨ring, orphan, report⟩ := same (if f''.ring ∈ t.boundRings q then { f'' with orphan := true } else f'')
  rw [orphan] at valid
  split at valid
  · cases valid
  next spared =>
    rw [if_neg spared] at ring report ⊢
    rw [ring, report, cascaded_jobRing, if_neg spared]
    exact ⟨rfl, belongs.fetches f'' before valid⟩

/-- The places of the fetches that belong to a ring only become fewer. -/
theorem cascaded_fetches (q : ReportRingId) {t : State} (waits : t.WaitsAgree) :
    (((cascaded q t).fetches.filter (fun f => !f.orphan)).map PointFetch.ring).Sublist
        ((t.fetches.filter (fun f => !f.orphan)).map PointFetch.ring) ∧
      ∀ i, fetchPlaces (cascaded q t) i ≤ fetchPlaces t i := by
  have kept := cascaded_kept q waits
  obtain ⟨g, same, fetches⟩ := kept.fetches
  have orphans : (fun f => !PointFetch.orphan f) ∘ g = fun f => !f.orphan := funext fun f => by simp [(same f).2.1]
  have rings : PointFetch.ring ∘ g = PointFetch.ring := funext fun f => (same f).1
  refine ⟨?_, fun i => ?_⟩
  · rw [fetches, List.filter_map, orphans, List.map_map, rings, cascadeDropRings_fetches, List.filter_map, List.map_map]
    have same' : PointFetch.ring ∘ (fun f => if f.ring ∈ t.boundRings q then { f with orphan := true } else f) =
        PointFetch.ring := funext fun f => by simp only [Function.comp]; split <;> rfl
    rw [same']
    refine List.Sublist.map _ (List.monotone_filter_right _ fun f spared => ?_)
    simp only [Function.comp] at spared
    split at spared
    · cases spared
    · exact spared
  · rw [kept.fetchPlaces, fetchPlaces, fetchPlaces, cascadeDropRings_fetches, List.countP_map]
    refine List.countP_mono_left fun f _ spared => ?_
    simp only [Function.comp] at spared
    split at spared
    · cases spared
    · exact spared

theorem Midway.cascaded {t : State} (midway : Midway 0 t) (q : ReportRingId) (work : q ≠ 0) :
    Midway 0 (Machine.forgetReportRing q (Machine.cascaded q t)) := by
  have belongs := midway.belongs
  have waits := midway.waits
  have frame : CloseFrame (cascadeDropRings (t.boundRings q) t) (Machine.cascaded q t) := closeAllQuietly_frame _ _
  have dropped := cascadeDropRings_frame (t.boundRings q) t
  obtain ⟨distinct, fewer⟩ := cascaded_fetches q waits
  have spared : (0 : JobRingId) ∉ t.boundRings q := fun drops => by
    have bound := ((t.mem_boundRings q 0).mp drops).2
    rw [(belongs.control 0 midway.present).mpr rfl] at bound
    exact work bound.symm
  have control : (Machine.cascaded q t).jobRing 0 = t.jobRing 0 := by rw [cascaded_jobRing, if_neg spared]
  have report (i : ReportRingId) (other : i ≠ q)
      (gone : ((Machine.forgetReportRing q (Machine.cascaded q t)).reportRing i).state = .absent) :
      (t.reportRing i).state = .absent := by
    have same : (Machine.forgetReportRing q (Machine.cascaded q t)).reportRing i = (Machine.cascaded q t).reportRing i :=
      State.reportRing_setReportRing_ne _ q i {} other
    rw [same] at gone
    have before := (cascaded_kept q waits).report i gone
    rwa [State.reportRing_congr t _ (by rw [dropped]) i] at before
  have seats : Seats (jobPlaces 0 t) (Machine.cascaded q t) :=
    closeAllQuietly_seats _ (midway.seats.congr (by rw [dropped]) (by rw [dropped]))
  refine ⟨?_, ⟨fun w e found => ?_, fun f inFlight valid => ?_, ?_, fun j there => ?_, fun j there => ?_⟩, ?_, ?_, ?_, ?_⟩
  · exact (closeAllQuietly_waitsAgree _ (cascadeDropRings_waitsAgree _ waits)).congr rfl rfl
  · obtain ⟨owner, same, there, bound⟩ := keptRing_of_wait waits belongs found
    have ring : (Machine.forgetReportRing q (Machine.cascaded q t)).jobRing e.ring = t.jobRing e.ring := same
    rw [ring]
    exact ⟨owner, there, bound⟩
  · obtain ⟨same, rest⟩ := keptRing_of_fetch waits belongs inFlight valid
    have ring : (Machine.forgetReportRing q (Machine.cascaded q t)).jobRing f.ring = t.jobRing f.ring := same
    rw [ring]
    exact rest
  · exact distinct.nodup belongs.distinct
  · obtain ⟨same, before, other⟩ := cascaded_jobRing_of_present q t j there
    have ring : (Machine.forgetReportRing q (Machine.cascaded q t)).jobRing j = t.jobRing j := same
    rw [ring]
    exact fun gone => belongs.bound j before (report _ other gone)
  · obtain ⟨same, before, -⟩ := cascaded_jobRing_of_present q t j there
    have ring : (Machine.forgetReportRing q (Machine.cascaded q t)).jobRing j = t.jobRing j := same
    rw [ring]
    exact belongs.control j before
  · have idle : (Machine.cascaded q t).taking = t.taking := by rw [frame, dropped]
    exact idle.trans midway.idle
  · exact control.symm ▸ midway.present
  · exact control.symm ▸ midway.noFetch
  · have forgot := seats.setReportRing q (x := {}) (.of_not_opened (by nofun))
    refine Seats.mono forgot fun i => ?_
    have bound : ((Machine.forgetReportRing q (Machine.cascaded q t)).jobRing 0).bound = (t.jobRing 0).bound := by
      rw [← control]
      rfl
    rw [jobPlaces, jobPlaces, bound]
    exact Nat.add_le_add_right (fewer i) _

theorem Midway.cascade {t : State} (midway : Midway 0 t) (q : ReportRingId) (tag : BitVec 16) (work : q ≠ 0) :
    (cascade q tag t).Finished := (midway.cascaded q work).answered tag _

/-! ### A drop that waits (R156) -/

theorem Midway.dropping {t : State} (midway : Midway 0 t) (q : ReportRingId) (tag : BitVec 16)
    (noUser : ∀ j, (t.jobRing j).state ≠ .absent → (t.jobRing j).bound ≠ q) :
    ({ t with taking := some { ring := 0, stage := .dropping q tag } } : State).Finished := by
  have belongs := midway.belongs
  refine ⟨⟨belongs.waits, belongs.fetches, belongs.distinct, belongs.bound, belongs.control⟩, fun x taking => ?_, ?_⟩
  · cases taking
    refine ⟨midway.present, midway.noFetch, nofun, fun i tag' dropping => ?_⟩
    cases dropping
    exact ⟨rfl, noUser⟩
  · refine Seats.mono (more := jobPlaces 0 t) (midway.seats.congr rfl rfl) fun i => le_of_eq ?_
    have take : takePlaces { t with taking := some { ring := 0, stage := .dropping q tag } } i =
        if (t.jobRing 0).bound = i then 1 else 0 := by
      simp only [takePlaces, Option.any_some, decide_eq_true_eq]
      rfl
    rw [otherPlaces, take, Nat.add_comm]
    rfl

/-! ### Every job -/

theorem Midway.result {guard : Prop} {r : JobRingId} {t u : State} (midway : Midway r t) (result : JobResult guard r t u) :
    u.Finished := by
  cases result with
  | answered w a done => exact (midway.done done).answered w.tag a
  | fetching k w n mode live few => exact midway.fetching k w n mode
  | waiting k w cond id live owner room isFree => exact midway.waiting k w cond id owner isFree
  | cascaded q tag control work broken => exact (control ▸ midway).cascade q tag work
  | unused q tag control work isOpen noUser => exact (control ▸ midway).dropUnused q tag (noUser_of_usersOf noUser)
  | dropping q tag control work isOpen noUser => exact (control ▸ midway).dropping q tag (noUser_of_usersOf noUser)

end Sys2Proof.Machine

/-!
PROOFS. Places over every step (R131, R148): the arrival of a record and its failure, the end of a fetch, the rings, start-up and
resets.
-/

namespace Sys2Proof.Machine

/-! ### Parts that keep the agreement -/

theorem Effects.placesSound {guard : Prop} {s t : State} (run : Effects guard s t) (sound : s.PlacesSound) : t.PlacesSound := by
  obtain ⟨waits, belongs, take, seats⟩ := s.placesSound_iff.mp sound
  refine t.placesSound_iff.mpr ⟨run.waitsAgree waits, run.jobsKept.belongs belongs, run.takeBelongs take, ?_⟩
  rw [run.otherPlaces]
  exact run.seats seats

theorem State.TakeBelongs.of_kept {s t : State} (take : s.TakeBelongs) (kept : JobsKept s t) (taking : t.taking = s.taking)
    (address : ∀ j, (t.jobRing j).recordAddress = (s.jobRing j).recordAddress) : t.TakeBelongs := by
  intro x reading
  obtain ⟨present, noFetch, reads, drops⟩ := take x (taking ▸ reading)
  refine ⟨mt (kept.ring x.ring).1.mp present, (kept.ring x.ring).2.2.trans noFetch, fun a stage => ?_, fun q tag stage => ?_⟩
  · rw [address]
    exact reads a stage
  · obtain ⟨control, noUser⟩ := drops q tag stage
    refine ⟨control, fun j there => ?_⟩
    rw [(kept.ring j).2.1]
    exact noUser j (mt (kept.ring j).1.mpr there)

/-- A part that keeps the jobs and the take in progress, and after which the rings still fit. -/
theorem State.PlacesSound.of_kept {s t : State} (sound : s.PlacesSound) (waits : t.WaitsAgree) (kept : JobsKept s t)
    (taking : t.taking = s.taking) (address : ∀ j, (t.jobRing j).recordAddress = (s.jobRing j).recordAddress)
    (seats : Seats (otherPlaces s) t) : t.PlacesSound := by
  obtain ⟨-, belongs, take, -⟩ := s.placesSound_iff.mp sound
  have places : otherPlaces t = otherPlaces s := by
    funext q
    rw [otherPlaces, otherPlaces, kept.fetchPlaces, takePlaces, takePlaces, taking]
    simp only [(kept.ring _).2.1]
  exact t.placesSound_iff.mpr ⟨waits, kept.belongs belongs, take.of_kept kept taking address, places.symm ▸ seats⟩

/-- A part that reaches neither the job rings nor the sessions, waits, fetches and the take; every report ring still fits. -/
theorem State.PlacesSound.of_rings {s t : State} (sound : s.PlacesSound) (jobRings : t.jobRings = s.jobRings)
    (fetches : t.fetches = s.fetches) (waits : t.waits = s.waits) (sessions : t.sessions = s.sessions)
    (taking : t.taking = s.taking) (state : ∀ q, (t.reportRing q).state = .absent → (s.reportRing q).state = .absent)
    (fits : ∀ q n, (s.reportRing q).Fits n → (t.reportRing q).Fits n) : t.PlacesSound := by
  obtain ⟨agree, -, -, seats⟩ := s.placesSound_iff.mp sound
  refine sound.of_kept (agree.congr waits sessions)
    (.of_same jobRings fetches waits (fun _ _ _ => by rw [State.session_congr s t sessions]) state) taking
    (fun j => by rw [State.jobRing_congr s t jobRings]) fun q => ?_
  have count : waitPlaces t q = waitPlaces s q := waitPlaces_congr q fun x => by rw [State.wait_congr s t waits]
  rw [count]
  exact fits q _ (seats q)

/-- Nothing that the agreement is about differs. -/
theorem State.PlacesSound.congr {s t : State} (sound : s.PlacesSound) (jobRings : t.jobRings = s.jobRings)
    (fetches : t.fetches = s.fetches) (waits : t.waits = s.waits) (sessions : t.sessions = s.sessions)
    (taking : t.taking = s.taking) (rings : t.reportRings = s.reportRings) : t.PlacesSound := by
  have same (q : ReportRingId) : t.reportRing q = s.reportRing q := State.reportRing_congr s t rings q
  exact sound.of_rings jobRings fetches waits sessions taking (fun q => by rw [same]; exact id) fun q n => by
    rw [same]
    exact id

theorem State.PlacesSound.setReportRing {s : State} (sound : s.PlacesSound) (q : ReportRingId) {x : ReportRing}
    (state : x.state = .absent → (s.reportRing q).state = .absent) (fits : ∀ n, (s.reportRing q).Fits n → x.Fits n) :
    (s.setReportRing q x).PlacesSound := by
  have entry (i : ReportRingId) := State.reportRing_setReportRing s q i x
  refine sound.of_rings rfl rfl rfl rfl rfl (fun i => ?_) fun i n => ?_
  · rw [entry]
    split
    next own => exact own ▸ state
    next => exact id
  · rw [entry]
    split
    next own => exact own ▸ fits n
    next => exact id

theorem State.PlacesSound.settle {s : State} (sound : s.PlacesSound) : (settle s).PlacesSound :=
  (effects_settle (guard := False) s fun h => h.elim).placesSound sound

theorem qualifiedEdges_placesSound (lines : BitVec 16) (order : List Delivery) {s : State} (sound : s.PlacesSound) :
    (qualifiedEdges lines order s).PlacesSound := by
  have accepted : (acceptLines lines allLines s).PlacesSound :=
    sound.congr (by rw [acceptLines_frame]) (by rw [acceptLines_frame]) (by rw [acceptLines_frame]) (by rw [acceptLines_frame])
      (by rw [acceptLines_frame]) (by rw [acceptLines_frame])
  exact (effects_handEdges (guard := False) lines order _).placesSound accepted

theorem periodPasses_placesSound {s : State} (sound : s.PlacesSound) : (periodPasses s).PlacesSound := by
  obtain ⟨waits, -, -, seats⟩ := s.placesSound_iff.mp sound
  refine sound.of_kept (periodPasses_waitsAgree waits) ⟨fun j => ?_, ?_, fun w e found => ?_, fun q => ?_⟩
    (by rw [periodPasses_frame]) (fun j => ?_) fun q => ?_
  · rw [State.jobRing_congr s _ (by rw [periodPasses_frame]) j]
    exact ⟨.rfl, rfl, rfl⟩
  · rw [periodPasses_fetches]
    exact fetches_map_id _
  · rw [periodPasses_wait] at found
    obtain ⟨e', before, rfl⟩ := Option.map_eq_some_iff.mp found
    exact ⟨e', before, rfl, rfl, rfl, by rw [State.session_congr s _ (periodPasses_sessions s)]⟩
  · rw [periodPasses_reportRing]
    exact id
  · rw [State.jobRing_congr s _ (by rw [periodPasses_frame]) j]
  · have count : waitPlaces (periodPasses s) q = waitPlaces s q := waitPlaces_congr q fun x => by
      rw [periodPasses_wait, Option.map_map]
      rfl
    rw [count, periodPasses_reportRing]
    exact seats q

/-! ### The taker and the arrival of a record (R130, R148) -/

theorem beginTake_placesSound (c : Choice) {s : State} (sound : s.PlacesSound) (idle : s.taking = none)
    (eligible : s.eligible c.ring = true) : (beginTake c s).PlacesSound := by
  obtain ⟨running, noFetch, isOpen, place⟩ := eligible_place s c.ring eligible
  obtain ⟨waits, belongs, -, seats⟩ := s.placesSound_iff.mp sound
  have entry (q : ReportRingId) : (beginTake c s).reportRing q =
      if q = (s.jobRing c.ring).bound then
        { s.reportRing (s.jobRing c.ring).bound with
          reservations := (s.reportRing (s.jobRing c.ring).bound).reservations + 1 }
      else s.reportRing q := State.reportRing_updReportRing s _ q fun x => { x with reservations := x.reservations + 1 }
  refine (beginTake c s).placesSound_iff.mpr ⟨waits.congr rfl rfl, ?_, fun t taking => ?_, fun q => ?_⟩
  · refine (JobsKept.of_same rfl rfl rfl (fun _ _ _ => rfl) fun q gone => ?_ : JobsKept s (beginTake c s)).belongs belongs
    rw [entry] at gone
    split at gone
    next own => exact own ▸ gone
    next => exact gone
  · cases taking
    exact ⟨fun absent => (nomatch running.symm.trans absent), noFetch, fun a reading => (TakeStage.reading.inj reading).symm,
      nofun⟩
  · have before := seats q
    have others : otherPlaces s q = fetchPlaces s q := by simp [otherPlaces, takePlaces, idle]
    have take : takePlaces (beginTake c s) q = if (s.jobRing c.ring).bound = q then 1 else 0 := by
      have taking : (beginTake c s).taking = some { ring := c.ring, stage := .reading (s.jobRing c.ring).recordAddress } := rfl
      have ring : (beginTake c s).jobRing c.ring = s.jobRing c.ring := rfl
      simp only [takePlaces, taking, ring, Option.any_some, decide_eq_true_eq]
    have count : waitPlaces (beginTake c s) q = waitPlaces s q := rfl
    have fetching : fetchPlaces (beginTake c s) q = fetchPlaces s q := rfl
    rw [others] at before
    rw [entry, otherPlaces, take, count, fetching]
    by_cases own : q = (s.jobRing c.ring).bound
    · rw [if_pos own, if_pos own.symm]
      intro opened
      rw [own] at before ⊢
      obtain ⟨within, reserved⟩ := before isOpen
      rw [ReportRing.freeSpace_eq] at place
      simp only
      omega
    · rw [if_neg own, if_neg (Ne.symm own), Nat.zero_add]
      exact before

/-- The job of the take is on its way once the take has ended. -/
theorem midway_of_taking {s : State} (sound : s.PlacesSound) {x : TakeInProgress} (taking : s.taking = some x) :
    Midway x.ring { s with taking := none } := by
  obtain ⟨waits, belongs, take, seats⟩ := s.placesSound_iff.mp sound
  obtain ⟨present, noFetch, -, -⟩ := take x taking
  have places : jobPlaces x.ring { s with taking := none } = otherPlaces s := by
    funext q
    rw [otherPlaces, takePlaces, taking, Nat.add_comm]
    simp only [Option.any_some, decide_eq_true_eq]
    rfl
  refine ⟨waits, ⟨belongs.waits, belongs.fetches, belongs.distinct, belongs.bound, belongs.control⟩, rfl, present,
    noFetch, ?_⟩
  rw [places]
  exact seats.congr rfl rfl

theorem Midway.settle {r : JobRingId} {t : State} (midway : Midway r t) : Midway r (settle t) := by
  have run : Effects False t (Machine.settle t) := effects_settle t fun h => h.elim
  exact midway.of_kept run.jobsKept (by rw [run.frame]; exact midway.idle) (run.waitsAgree midway.waits)
    (run.seats midway.seats)

theorem midway_recordArrives {s : State} (sound : s.PlacesSound) (r : JobRingId) (reading : s.readsFor r) :
    Midway r (recordArrives r s) := by
  obtain ⟨a, taking⟩ := reading
  have settled := sound.settle
  rw [recordArrives_eq]
  have taking' : (settle s).taking = some { ring := r, stage := .reading a } := by
    rw [eventFrame_settle s]
    exact taking
  generalize settle s = v at settled taking' ⊢
  have midway : Midway r { v with taking := none } := midway_of_taking settled taking'
  refine midway.of_kept ⟨fun j => ?_, fetches_map_id _, fun w e found => ⟨e, found, rfl, rfl, rfl, rfl⟩, fun _ => id⟩ rfl
    (midway.waits.congr rfl rfl) (midway.seats.congr rfl rfl)
  have entry : ({ v.setJobRing r (v.jobRing r).advance with taking := none } : State).jobRing j =
      if j = r then (v.jobRing r).advance else v.jobRing j := State.jobRing_setJobRing v r j _
  rw [entry]
  split
  next own => rw [own]; exact ⟨.rfl, rfl, rfl⟩
  next => exact ⟨.rfl, rfl, rfl⟩

/-! ### NOTICEs to RR0 (R152) -/

/-- Only RR0 can hold one more record. -/
theorem postRingNotice_reportRing (status : Status) (value : Word32) (s : State) (q : ReportRingId) :
    (postRingNotice status value s).reportRing q = s.reportRing q ∨
      (s.reportRing q).withUnsolicited (ringNotice status value s) none =
        some ((postRingNotice status value s).reportRing q) := by
  obtain ⟨-, others, offered⟩ := postRingNotice_eq status value s
  by_cases control : q = 0
  · subst control
    unfold NoticeOffered at offered
    split at offered
    next taken => exact .inr (taken.trans (congrArg some offered.1.symm))
    next => exact .inl offered.1
    next => exact .inl offered.1
  · exact .inl (others q control)

theorem postRingNotice_fits (status : Status) (value : Word32) (s : State) (q : ReportRingId) {n : Nat}
    (fits : (s.reportRing q).Fits n) : ((postRingNotice status value s).reportRing q).Fits n := by
  rcases postRingNotice_reportRing status value s q with same | taken
  · exact same ▸ fits
  · exact fits.withUnsolicited _ none taken

theorem postRingNotice_state (status : Status) (value : Word32) (s : State) (q : ReportRingId) :
    ((postRingNotice status value s).reportRing q).state = (s.reportRing q).state := by
  rcases postRingNotice_reportRing status value s q with same | taken
  · rw [same]
  · exact ReportRing.withUnsolicited_state taken

theorem postRingNotice_placesSound (status : Status) (value : Word32) {s : State} (sound : s.PlacesSound) :
    (postRingNotice status value s).PlacesSound := by
  obtain ⟨frame, -⟩ := postRingNotice_eq status value s
  exact sound.of_rings (by rw [frame]) (by rw [frame]) (by rw [frame]) (by rw [frame]) (by rw [frame])
    (fun q => by rw [postRingNotice_state]; exact id) fun q n => postRingNotice_fits status value s q

/-! ### Errors of the bus (R132, R153) -/

theorem State.Finished.placesSound {u : State} (finished : u.Finished) (waits : u.WaitsAgree) : u.PlacesSound :=
  u.placesSound_iff.mpr ⟨waits, finished⟩

theorem returnReservation_jobsKept (ring : ReportRingId) (s : State) : JobsKept s (returnReservation ring s) := by
  have only : returnReservation ring s = { s with reportRings := (returnReservation ring s).reportRings } := by
    unfold returnReservation
    split <;> rfl
  refine .of_same (by rw [only]) (by rw [only]) (by rw [only]) (fun _ _ _ => ?_) fun q => ?_
  · rw [State.session_congr s _ (returnReservation_sessions ring s)]
  · rw [returnReservation_state]
    exact id

theorem returnReservation_seats {more : ReportRingId → Nat} (ring : ReportRingId) {s : State}
    (seats : Seats (fun q => more q + if ring = q then 1 else 0) s) : Seats more (returnReservation ring s) := by
  intro q
  have count : waitPlaces (returnReservation ring s) q = waitPlaces s q :=
    waitPlaces_congr q fun x => by rw [returnReservation_wait]
  have before := seats q
  rw [count, returnReservation_reportRing]
  split
  next own =>
    rw [own.1] at before ⊢
    simp only [if_true] at before
    exact ReportRing.Fits.returned before
  next => exact before.mono (Nat.add_le_add_left (Nat.le_add_right _ _) _)

theorem recordFetchFailed_placesSound (r : JobRingId) {s : State} (sound : s.PlacesSound) (reading : s.readsFor r) :
    (recordFetchFailed r s).PlacesSound := by
  obtain ⟨a, taking⟩ := reading
  have midway : Midway r { s with taking := none } := midway_of_taking sound taking
  have kept := returnReservation_jobsKept (s.jobRing r).bound { s with taking := none }
  have seats : Seats (fetchPlaces { s with taking := none }) (returnReservation (s.jobRing r).bound { s with taking := none }) :=
    returnReservation_seats _ midway.seats
  have waits : (returnReservation (s.jobRing r).bound { s with taking := none }).WaitsAgree :=
    midway.waits.of_same (fun w => by rw [returnReservation_wait])
      (fun k => by rw [State.session_congr _ _ (returnReservation_sessions _ _)])
      fun k => by rw [State.session_congr _ _ (returnReservation_sessions _ _)]
  have idle : (returnReservation (s.jobRing r).bound { s with taking := none }).taking = none := by
    unfold returnReservation
    split <;> rfl
  have belongs := kept.belongs midway.belongs
  have present := mt (kept.ring r).1.mp midway.present
  rw [← kept.fetchPlaces] at seats
  unfold recordFetchFailed
  dsimp only
  refine postRingNotice_placesSound _ _ ?_
  generalize returnReservation (s.jobRing r).bound { s with taking := none } = v at waits belongs seats idle present
  have broken : JobsKept v (v.updJobRing r (fun j => { j with state := .broken })) := by
    refine ⟨fun j => ?_, fetches_map_id _, fun w e found => ⟨e, found, rfl, rfl, rfl, rfl⟩, fun _ => id⟩
    rw [State.jobRing_updJobRing]
    split
    next own => exact ⟨iff_of_false nofun (own ▸ present), by rw [own], by rw [own]⟩
    next => exact ⟨.rfl, rfl, rfl⟩
  refine State.Finished.placesSound (State.finished_of_idle (broken.belongs belongs) idle ?_) (waits.congr rfl rfl)
  rw [broken.fetchPlaces]
  exact seats.congr rfl rfl

theorem ringBreaks_placesSound (q : ReportRingId) {s : State} (sound : s.PlacesSound) : (ringBreaks q s).PlacesSound := by
  obtain ⟨agree, -, -, seats⟩ := s.placesSound_iff.mp sound
  have frame := loseRecords_frame (s.reportRing q).unwritten s
  have entry (k : SessionId) := loseRecords_session (s.reportRing q).unwritten s k
  have broke : ((loseRecords (s.reportRing q).unwritten s).updReportRing q ReportRing.broke).PlacesSound := by
    generalize loseRecords (s.reportRing q).unwritten s = v at frame entry
    have kept (k : SessionId) : (v.session k).owner = (s.session k).owner ∧ (v.session k).waits = (s.session k).waits ∧
        (v.session k).state = (s.session k).state := by
      obtain ⟨n, lost⟩ := entry k
      rw [lost]
      exact ⟨rfl, rfl, rfl⟩
    have waits : v.WaitsAgree := agree.of_same (fun w => by rw [State.wait_congr s v (by rw [frame])])
      (fun k => (kept k).2.1) fun k => (kept k).2.2
    have lost : v.PlacesSound :=
      sound.of_kept waits
        (.of_same (by rw [frame]) (by rw [frame]) (by rw [frame]) (fun _ _ _ => (kept _).1)
          fun i => by rw [State.reportRing_congr s v (by rw [frame]) i]; exact id)
        (by rw [frame]) (fun j => by rw [State.jobRing_congr s v (by rw [frame]) j])
        (seats.congr (by rw [frame]) (by rw [frame]))
    exact lost.setReportRing q nofun fun _ _ => .of_not_opened nofun
  unfold ringBreaks
  dsimp only
  split
  · exact broke.congr rfl rfl rfl rfl rfl rfl
  · exact postRingNotice_placesSound _ _ broke

end Sys2Proof.Machine

/-!
PROOFS. Places over every step, second part: the end of a fetch, releases, start-up and resets, and the invariant (R131, R147,
R148, R170).
-/

namespace Sys2Proof.Machine

/-! ### The end of a fetch (R70, R72 to R74) -/

/-- The places of the fetches but the one that ends. -/
def restPlaces (n : Nat) (s : State) (q : ReportRingId) : Nat :=
  (s.fetches.eraseIdx n).countP (fun f => !f.orphan && decide (f.reportRing = q))

theorem perm_eraseIdx {n : Nat} {f : PointFetch} {l : List PointFetch} (found : l[n]? = some f) :
    (f :: l.eraseIdx n).Perm l := by
  obtain ⟨inside, rfl⟩ := List.getElem?_eq_some_iff.mp found
  exact List.getElem_cons_eraseIdx_perm inside

theorem fetchPlaces_eq_rest {n : Nat} {f : PointFetch} {s : State} (found : s.fetches[n]? = some f) (q : ReportRingId) :
    fetchPlaces s q = restPlaces n s q + if f.orphan = false ∧ f.reportRing = q then 1 else 0 := by
  rw [fetchPlaces, ← (perm_eraseIdx found).countP_eq, List.countP_cons, restPlaces]
  simp

/-- The state after the end of a fetch whose ring is still there: the fetch and the ring's mark are gone. -/
def unmarked (n : Nat) (f : PointFetch) (u : State) : State :=
  ({ u with fetches := u.fetches.eraseIdx n } : State).updJobRing f.ring (fun x => { x with fetchInFlight := false })

theorem unmarked_jobRing (n : Nat) (f : PointFetch) (u : State) (j : JobRingId) :
    (unmarked n f u).jobRing j =
      { u.jobRing j with fetchInFlight := if j = f.ring then false else (u.jobRing j).fetchInFlight } := by
  have entry := State.jobRing_updJobRing { u with fetches := u.fetches.eraseIdx n } f.ring j
    fun x => { x with fetchInFlight := false }
  rw [unmarked, entry]
  split
  next own => rw [own]; rfl
  next => rfl

theorem unmarked_fetches (n : Nat) (f : PointFetch) (u : State) : (unmarked n f u).fetches = u.fetches.eraseIdx n := rfl

section EndedFetch

variable {n : Nat} {f : PointFetch} {u : State} (belongs : u.Belongs) (found : u.fetches[n]? = some f)

include belongs found

/-- The fetches that are left are on rings of their own. -/
theorem rest_distinct : (((f :: u.fetches.eraseIdx n).filter (fun g => !g.orphan)).map PointFetch.ring).Nodup :=
  (((perm_eraseIdx found).filter _).map _).nodup_iff.mpr belongs.distinct

theorem unmarked_belongs (valid : f.orphan = false) : (unmarked n f u).Belongs := by
  have distinct := rest_distinct belongs found
  rw [List.filter_cons_of_pos (by simp [valid]), List.map_cons] at distinct
  obtain ⟨alone, distinct⟩ := List.nodup_cons.mp distinct
  refine ⟨fun w e there => ?_, fun g left orphan => ?_, distinct, fun j there => ?_, fun j there => ?_⟩
  · rw [unmarked_jobRing]
    exact belongs.waits w e there
  · rw [unmarked_fetches] at left
    have other : g.ring ≠ f.ring := fun own =>
      alone (own ▸ List.mem_map_of_mem (List.mem_filter.mpr ⟨left, by simp [orphan]⟩))
    rw [unmarked_jobRing, if_neg other]
    exact belongs.fetches g ((perm_eraseIdx found).subset (List.mem_cons_of_mem _ left)) orphan
  · rw [unmarked_jobRing] at there ⊢
    exact belongs.bound j there
  · rw [unmarked_jobRing] at there ⊢
    exact belongs.control j there

theorem orphaned_belongs (orphan : f.orphan = true) : ({ u with fetches := u.fetches.eraseIdx n } : State).Belongs := by
  have distinct := rest_distinct belongs found
  rw [List.filter_cons_of_neg (by simp [orphan])] at distinct
  exact ⟨belongs.waits, fun g left => belongs.fetches g ((perm_eraseIdx found).subset (List.mem_cons_of_mem _ left)), distinct,
    belongs.bound, belongs.control⟩

end EndedFetch

theorem unmarked_takeBelongs (n : Nat) (f : PointFetch) {u : State} (take : u.TakeBelongs) :
    (unmarked n f u).TakeBelongs := by
  intro x reading
  obtain ⟨present, noFetch, reads, drops⟩ := take x reading
  rw [unmarked_jobRing]
  refine ⟨present, ?_, reads, fun q tag stage => ?_⟩
  · dsimp only
    split
    · rfl
    · exact noFetch
  · obtain ⟨control, noUser⟩ := drops q tag stage
    refine ⟨control, fun j => ?_⟩
    rw [unmarked_jobRing]
    exact noUser j

theorem unmarked_otherPlaces (n : Nat) (f : PointFetch) (u : State) :
    otherPlaces (unmarked n f u) = fun q => takePlaces u q + restPlaces n u q := by
  have taking : (unmarked n f u).taking = u.taking := rfl
  funext q
  rw [otherPlaces, takePlaces, takePlaces, taking, fetchPlaces, unmarked_fetches, restPlaces]
  simp only [unmarked_jobRing]

/-- A fetch that leaves, with its mark, once its job has been answered. -/
theorem endFetch_finished (n : Nat) (f : PointFetch) {u : State} (belongs : u.Belongs) (take : u.TakeBelongs)
    (found : u.fetches[n]? = some f) (seats : Seats (fun q => takePlaces u q + restPlaces n u q) u) :
    (endFetch n f u).Finished := by
  cases orphan : f.orphan with
  | true =>
    have runs : endFetch n f u = { u with fetches := u.fetches.eraseIdx n } := if_pos orphan
    rw [runs]
    exact ⟨orphaned_belongs belongs found orphan, take, seats.congr rfl rfl⟩
  | false =>
    have runs : endFetch n f u = unmarked n f u := if_neg (by simp [orphan])
    rw [runs]
    refine ⟨unmarked_belongs belongs found orphan, unmarked_takeBelongs n f take, ?_⟩
    rw [unmarked_otherPlaces]
    exact seats.congr rfl rfl

/-- The end of a fetch answers its job, if its ring is still there, having changed no more than the entry of its session. -/
def EndsWithAnswer (f : PointFetch) (v u : State) : Prop :=
  if f.orphan then u = v
  else ∃ e a, e.owner = (v.session f.session).owner ∧ u = answer f.ring f.reportRing f.tag a (v.setSession f.session e)

theorem endsWithAnswer_fetchRefused (f : PointFetch) (status : Status) (value : Nat) (v : State) :
    ∃ e a, e.owner = (v.session f.session).owner ∧
      fetchRefused f status value v = answer f.ring f.reportRing f.tag a (v.setSession f.session e) := by
  refine ⟨v.session f.session, { status, session := toByte f.session.val, value := toWord value, stamp := v.stamp }, rfl, ?_⟩
  rw [v.setSession_self]
  rfl

theorem Session.stage_owner (e : Session) (points : List Point) (mode : CommitMode) : (e.stage points mode).owner = e.owner := by
  unfold Session.stage
  dsimp only
  split <;> rfl

theorem fetchDone_endsWithAnswer (f : PointFetch) (entries : List PointEntry) (v : State) :
    EndsWithAnswer f v (fetchDone f entries v) := by
  unfold EndsWithAnswer fetchDone
  dsimp only
  split
  · rfl
  · split
    · exact endsWithAnswer_fetchRefused f _ _ v
    · split
      · exact endsWithAnswer_fetchRefused f _ _ v
      · exact ⟨_, _, Session.stage_owner _ _ _, rfl⟩

theorem fetchFailed_endsWithAnswer (f : PointFetch) (entry : Nat) (v : State) :
    EndsWithAnswer f v (fetchFailed f entry v) := by
  unfold EndsWithAnswer fetchFailed
  split
  · rfl
  · split <;> exact endsWithAnswer_fetchRefused f _ _ v

theorem answer_recordAddress (r j : JobRingId) (report : ReportRingId) (tag : BitVec 16) (a : Answer) (t : State) :
    ((answer r report tag a t).jobRing j).recordAddress = (t.jobRing j).recordAddress := by
  rw [answer_jobRing]
  split
  next own =>
    rw [own, JobRing.afterAnswer]
    split <;> rfl
  next => rfl

theorem endFetch_of_answer {n : Nat} {f : PointFetch} {v u : State} (sound : v.PlacesSound) (found : v.fetches[n]? = some f)
    (ends : EndsWithAnswer f v u) : (endFetch n f u).Finished := by
  obtain ⟨-, belongs, take, seats⟩ := v.placesSound_iff.mp sound
  unfold EndsWithAnswer at ends
  split at ends
  next orphan =>
    subst ends
    refine endFetch_finished n f belongs take found (seats.mono fun q => ?_)
    rw [otherPlaces, fetchPlaces_eq_rest found]
    omega
  next valid =>
    obtain ⟨e, a, owner, rfl⟩ := ends
    have changed : JobsKept v (v.setSession f.session e) := by
      refine .of_same rfl rfl rfl (fun _ x _ => ?_) fun _ => id
      rw [State.session_setSession]
      split
      next own => rw [own, owner]
      next => rfl
    have kept := changed.trans (answer_jobsKept f.ring f.reportRing f.tag a (v.setSession f.session e))
    have only := answer_onlyRings f.ring f.reportRing f.tag a (v.setSession f.session e)
    have address (j : JobRingId) := answer_recordAddress f.ring j f.reportRing f.tag a (v.setSession f.session e)
    have filled : Seats (fun q => takePlaces v q + restPlaces n v q)
        (answer f.ring f.reportRing f.tag a (v.setSession f.session e)) := by
      have before : Seats (otherPlaces v) (v.setSession f.session e) := seats.congr rfl rfl
      refine answer_seats _ _ _ _ (before.mono fun q => ?_)
      rw [otherPlaces, fetchPlaces_eq_rest found]
      simp only [Bool.not_eq_true] at valid
      simp only [valid, true_and]
      omega
    have fetches : (answer f.ring f.reportRing f.tag a (v.setSession f.session e)).fetches = v.fetches := by rw [only]; rfl
    have taking : (answer f.ring f.reportRing f.tag a (v.setSession f.session e)).taking = v.taking := by rw [only]; rfl
    have address' (j : JobRingId) : ((answer f.ring f.reportRing f.tag a (v.setSession f.session e)).jobRing j).recordAddress =
        (v.jobRing j).recordAddress := address j
    generalize answer f.ring f.reportRing f.tag a (v.setSession f.session e) = u at kept filled fetches taking address'
    refine endFetch_finished n f (kept.belongs belongs) (take.of_kept kept taking address') (fetches ▸ found) ?_
    have places : (fun q => takePlaces u q + restPlaces n u q) = fun q => takePlaces v q + restPlaces n v q := by
      funext q
      rw [takePlaces, takePlaces, taking, restPlaces, restPlaces, fetches]
      simp only [(kept.ring _).2.1]
    rw [places]
    exact filled

/-! ### Releases (R147) -/

theorem ReportRing.Fits.released {n : Nat} {q : ReportRing} (fits : q.Fits n) (index : Nat) : (q.released index).Fits n := by
  have freed : ReportRing.Fits n { q with releaseIndex := index, outstanding := q.outstanding - q.releaseCount index } := by
    intro opened
    obtain ⟨within, reserved⟩ := fits opened
    exact ⟨by simp only; omega, reserved⟩
  unfold ReportRing.released
  dsimp only
  split
  · exact freed.drain
  · exact freed

theorem ReportRing.released_state (q : ReportRing) (index : Nat) : (q.released index).state = q.state := by
  unfold ReportRing.released
  dsimp only
  split
  · rw [ReportRing.drain_state]
  · rfl

theorem releaseWrite_placesSound (word : Word32) {s : State} (sound : s.PlacesSound) : (releaseWrite word s).PlacesSound := by
  unfold releaseWrite
  split
  · exact sound.congr rfl rfl rfl rfl rfl rfl
  next q _ =>
    split
    · exact sound.setReportRing q (fun gone => (ReportRing.released_state _ _).symm.trans gone) fun _ fits => fits.released _
    · exact sound.congr rfl rfl rfl rfl rfl rfl

theorem postWrite_placesSound (word : Word32) {s : State} (sound : s.PlacesSound) : (postWrite word s).PlacesSound := by
  unfold postWrite
  split
  · exact sound.congr rfl rfl rfl rfl rfl rfl
  next j _ =>
    split
    · obtain ⟨waits, -, -, seats⟩ := s.placesSound_iff.mp sound
      have entry (i : JobRingId) := State.jobRing_updJobRing s j i fun x => { x with post := indexField word }
      refine sound.of_kept (waits.congr rfl rfl)
        ⟨fun i => ?_, fetches_map_id _, fun w e found => ⟨e, found, rfl, rfl, rfl, rfl⟩, fun _ => id⟩ rfl (fun i => ?_)
        (seats.congr rfl rfl)
      · rw [entry]
        split
        next own => rw [own]; exact ⟨.rfl, rfl, rfl⟩
        next => exact ⟨.rfl, rfl, rfl⟩
      · rw [entry]
        split
        next own => rw [own]; rfl
        next => rfl
    · exact sound.congr rfl rfl rfl rfl rfl rfl

/-! ### Start-up and resets (R170, R172) -/

/-- A report ring without places to keep is made anew. -/
theorem State.PlacesSound.makeReportRing {s : State} (sound : s.PlacesSound) (q : ReportRingId) (base size : Nat)
    (mode : NotifyMode) (noUser : ∀ j, (s.jobRing j).state ≠ .absent → (s.jobRing j).bound ≠ q) :
    (s.setReportRing q (madeReportRing base size mode)).PlacesSound := by
  obtain ⟨waits, belongs, take, seats⟩ := s.placesSound_iff.mp sound
  obtain ⟨noWaits, noFetches⟩ := belongs.no_places q noUser
  have noTake : takePlaces s q = 0 := by
    unfold takePlaces
    cases taking : s.taking with
    | none => rfl
    | some x => simp [noUser x.ring (take x taking).1]
  refine sound.of_kept (waits.congr rfl rfl) (.of_same rfl rfl rfl (fun _ _ _ => rfl) fun i gone => ?_) rfl (fun _ => rfl)
    (seats.setReportRing q fun _ => ?_)
  · rw [State.reportRing_setReportRing] at gone
    split at gone
    · cases gone
    · exact gone
  · rw [otherPlaces, noWaits, noTake, noFetches]
    exact ⟨Nat.zero_le _, Nat.zero_le _⟩

/-- JR0 is made, bound to RR0. -/
theorem State.PlacesSound.makeJr0 {s : State} (sound : s.PlacesSound) (e : JobRing) (absent : (s.jobRing 0).state = .absent)
    (bound : e.bound = 0) (there : (s.reportRing 0).state ≠ .absent) : (s.setJobRing 0 e).PlacesSound := by
  obtain ⟨waits, belongs, take, seats⟩ := s.placesSound_iff.mp sound
  have entry (j : JobRingId) := State.jobRing_setJobRing s 0 j e
  have other (x : TakeInProgress) (taking : s.taking = some x) : x.ring ≠ 0 := fun own => (take x taking).1 (own ▸ absent)
  have places : otherPlaces (s.setJobRing 0 e) = otherPlaces s := by
    funext q
    have taking : (s.setJobRing 0 e).taking = s.taking := rfl
    have fetching : fetchPlaces (s.setJobRing 0 e) q = fetchPlaces s q := rfl
    rw [otherPlaces, otherPlaces, fetching, takePlaces, takePlaces, taking]
    cases reading : s.taking with
    | none => rfl
    | some x => simp only [Option.any_some, entry, if_neg (other x reading)]
  refine (s.setJobRing 0 e).placesSound_iff.mpr ⟨waits.congr rfl rfl,
    belongs.setJobRing_of_absent 0 e absent (bound.symm ▸ there) (iff_of_true bound rfl), fun x taking => ?_,
    places.symm ▸ seats.congr rfl rfl⟩
  obtain ⟨present, noFetch, reads, drops⟩ := take x taking
  rw [entry, if_neg (other x taking)]
  exact ⟨present, noFetch, reads, fun q tag stage => absurd (drops q tag stage).1 (other x taking)⟩

theorem startPart_placesSound {s : State} (sound : s.PlacesSound) (absent : (s.jobRing 0).state = .absent) :
    (startPart s).PlacesSound := by
  obtain ⟨-, belongs, -⟩ := s.placesSound_iff.mp sound
  have noUser (j : JobRingId) (there : (s.jobRing j).state ≠ .absent) : (s.jobRing j).bound ≠ 0 := fun bound =>
    there ((belongs.control j there).mp bound ▸ absent)
  unfold startPart
  split
  · have made := sound.makeReportRing 0 s.rr0Base s.crRr0Size.toNat .each noUser
    have there : ((s.setReportRing 0 (madeReportRing s.rr0Base s.crRr0Size.toNat .each)).reportRing 0).state ≠ .absent := by
      rw [State.reportRing_setReportRing_same]
      nofun
    exact (made.makeJr0 s.madeJr0 absent rfl there).congr rfl rfl rfl rfl rfl rfl
  · exact sound.congr rfl rfl rfl rfl rfl rfl

/-- After a reset there is no job. -/
theorem reset_placesSound {t : State} (sessions : t.sessions = State.reset.sessions) (waits : t.waits = State.reset.waits)
    (jobRings : t.jobRings = State.reset.jobRings) (rings : t.reportRings = State.reset.reportRings) (fetches : t.fetches = [])
    (idle : t.taking = none) : t.PlacesSound := by
  have wait (w : WaitId) : t.wait w = none := (State.wait_congr State.reset t waits w).trans (State.reset_wait w)
  have ring (j : JobRingId) : t.jobRing j = {} := (State.jobRing_congr State.reset t jobRings j).trans (State.reset_jobRing j)
  have report (q : ReportRingId) : t.reportRing q = {} :=
    (State.reportRing_congr State.reset t rings q).trans (State.reset_reportRing q)
  refine State.Finished.placesSound (State.finished_of_idle ⟨fun w e found => ?_, fun f inFlight => ?_, ?_, fun j there => ?_,
    fun j there => ?_⟩ idle fun q => ?_) (reset_waitsAgree waits sessions)
  · exact nomatch (wait w).symm.trans found
  · rw [fetches] at inFlight
    cases inFlight
  · rw [fetches]
    exact List.nodup_nil
  · exact absurd (by rw [ring]) there
  · exact absurd (by rw [ring]) there
  · rw [report]
    exact .of_not_opened nofun

/-! ### Every step -/

theorem StepResult.placesSound {s t : State} (result : StepResult False s t) (sound : s.PlacesSound) : t.PlacesSound := by
  have agree := result.waitsAgree sound.1
  have settled := sound.settle
  cases result with
  | events run => exact run.placesSound sound
  | edges lines order => exact qualifiedEdges_placesSound lines order settled
  | sampled levels order =>
    have sampled : (sampleLines levels allLines (periodPasses s)).PlacesSound :=
      (periodPasses_placesSound sound).congr (by rw [sampleLines_frame]) (by rw [sampleLines_frame]) (by rw [sampleLines_frame])
        (by rw [sampleLines_frame]) (by rw [sampleLines_frame]) (by rw [sampleLines_frame])
    unfold samplePins
    dsimp only
    split
    · exact sampled
    · exact qualifiedEdges_placesSound _ order sampled.settle
  | took c idle chosen => exact beginTake_placesSound c sound idle (choose_eligible s c chosen).1
  | job r reading result => exact ((midway_recordArrives sound r reading).result result).placesSound agree
  | fetchFailed r reading => exact recordFetchFailed_placesSound r sound reading
  | dropEnded j q tag waits =>
    obtain ⟨-, belongs, take, -⟩ := s.placesSound_iff.mp sound
    obtain ⟨present, -, -, drops⟩ := take _ waits
    obtain ⟨control, noUser⟩ := drops q tag rfl
    have bound := noUser j present
    subst control
    have work : q ≠ 0 := fun own => bound (((belongs.control 0 present).mpr rfl).trans own.symm)
    have midway : Midway 0 (settle { s with taking := none }) := (midway_of_taking sound waits).settle
    have kept := (effects_settle (guard := False) { s with taking := none } fun h => h.elim).frame
    refine State.Finished.placesSound ?_ agree
    unfold finishDrop
    split
    · exact midway.cascade q tag work
    · refine midway.dropUnused q tag fun i => ?_
      rw [kept.jobRing]
      exact noUser i
  | fetched n f entries found whole =>
    have found' : (settle s).fetches[n]? = some f := by rw [eventFrame_settle s]; exact found
    exact (endFetch_of_answer settled found' (fetchDone_endsWithAnswer f entries _)).placesSound agree
  | fetchBroke n f entry found =>
    have found' : (settle s).fetches[n]? = some f := by rw [eventFrame_settle s]; exact found
    exact (endFetch_of_answer settled found' (fetchFailed_endsWithAnswer f entry _)).placesSound agree
  | batchExpired q expired =>
    exact (sound.setReportRing q (x := (s.reportRing q).restartBatch) id fun _ fits => fits).congr rfl rfl rfl rfl rfl rfl
  | strayEnded q lands =>
    unfold endStray
    split <;> exact sound.congr rfl rfl rfl rfl rfl rfl
  | wrote q p rest oldest =>
    obtain ⟨n, timer, bits, written⟩ := writeDone_eq q p rest s
    have fewer : (s.setReportRing q
        { s.reportRing q with unwritten := rest, unnotified := n, batchTimer := timer }).PlacesSound :=
      sound.setReportRing q id fun _ fits => fits
    exact fewer.congr (by rw [written]) (by rw [written]) (by rw [written]) (by rw [written]) (by rw [written]) (by rw [written])
  | broke q underWay => exact ringBreaks_placesSound q sound
  | posted word => exact postWrite_placesSound word sound
  | released word => exact releaseWrite_placesSound word sound
  | startedUp intEnable fatal idle absent =>
    exact startPart_placesSound (s := { s with intEnable }) (sound.congr rfl rfl rfl rfl rfl rfl) absent
  | resetRose levels phase =>
    have rose : ({ s with phase } : State).PlacesSound := sound.congr rfl rfl rfl rfl rfl rfl
    exact rose.congr (by rw [firstSamples_frame]) (by rw [firstSamples_frame]) (by rw [firstSamples_frame])
      (by rw [firstSamples_frame]) (by rw [firstSamples_frame]) (by rw [firstSamples_frame])
  | engineReset intEnable => exact reset_placesSound rfl rfl rfl rfl rfl rfl
  | hardwareReset => exact reset_placesSound rfl rfl rfl rfl rfl rfl
  | registers | ran => exact sound.congr rfl rfl rfl rfl rfl rfl

/-- Settles O9: every form of a command's effect keeps every place. -/
theorem openRingsNeverOverfull : Obligations.OpenRingsNeverOverfull := by
  unfold Obligations.OpenRingsNeverOverfull
  intro s t before stepped
  exact step_keeps (P := State.PlacesSound) False (fun _ _ h => h.elim) (fun _ _ h => h.congr rfl rfl rfl rfl rfl rfl)
    (fun _ _ h form => form.placesSound h) before stepped

end Sys2Proof.Machine

end
